-- ==== Sys2Proof/Word.lean ====
section
/-! DEFINITION. The words of the Renjola 3160 and the index types of its tables. -/

namespace Sys2Proof

abbrev Byte := BitVec 8

/-- Frames are sequences of bytes (11). -/
abbrev Bytes := List Byte

/-- A node's 24-bit field address (02, the roster entry). -/
abbrev NodeId := BitVec 24

/-- Generations and run numbers are 16-bit and wrap (R26, R87, R119). -/
abbrev Word16 := BitVec 16

/-- Forty zones, index 0 to 39 (05). -/
abbrev ZoneIx := Fin 40

/-- 256 roster entries (02). -/
abbrev EntryIx := Fin 256

/-- Twelve run slots; slot 0 is the frost run's (R119). -/
abbrev SlotIx := Fin 12

/-- Four enrollment contexts (R48). -/
abbrev CtxIx := Fin 4

/-- Class codes 0 MOISTURE, 1 AIR_DRY, 2 AIR_WET, 3 AUX, 4 FLOW, 5 VALVE (R44). -/
abbrev ClassCode := Fin 6

/-- The two sample windows, 0 for A and 1 for B (R75). -/
abbrev WinIx := Fin 2

end Sys2Proof
end

