-- ==== Sys2Proof/Syntax.lean ====
section
/-! DEFINITION. The commands: one constructor of Instr for each row of spec/opcode_table.json. -/

namespace Sys2Proof

/-- The port a request came by: the host's REQUEST frames wait in the uplink request queue, a
handheld's MGMT frames in MGU's hand-off queue (R172, R173). -/
inductive Port where
  | uplink
  | field
  deriving DecidableEq, Repr

/-- The transceiver's answer to a transmission (R18). -/
inductive TxAnswer where
  | sent
  | notSent
  deriving DecidableEq, Repr

/-- Which transmission the transceiver answers: the one in flight, or one that has already ended by
its answer wait or by a reset (R18; log 12). -/
inductive AnswerFor where
  | inFlight
  | ended
  deriving DecidableEq, Repr

/-- When NRS does its work at a window close: before MGU's share, between MGU's share and ZTB's reports,
after a REPORT (the last, where there are fewer), before ZTB considers a zone for the trigger, or after the
trigger.  The manual gives no order (R77, R93, R96; log 7). -/
inductive NrsTurn where
  | beforeCommit
  | beforeReports
  | afterReport (report : Fin 3)
  | beforeZone (zone : ZoneIx)
  | afterTrigger
  deriving DecidableEq, Repr

/-- The sixty steps of the part.  A row whose frame or arguments wait in a queue of the part takes
them from there, so it has no operand for them (log 4). -/
inductive Instr where
  /-- HARD_RESET: a LOW pulse on RESET# (R189). -/
  | hardReset
  /-- SOFT_RESET: the last byte of the RESET reply has left the uplink port (R177). -/
  | softReset
  /-- FIELD_ARRIVAL: a frame read whole from the transceiver (R1). -/
  | fieldArrival (frame : Bytes)
  /-- FCL_TAKE_FRAME (R3). -/
  | fclTakeFrame
  /-- FCL_HAND_OFF (R3). -/
  | fclHandOff
  /-- SWU_TAKE_READING (R63). -/
  | swuTakeReading
  /-- JOIN: ENU takes a JOIN (R49). -/
  | join
  /-- SHEET: ENU takes a SHEET (R55). -/
  | sheet
  /-- EARLY_TRAFFIC: ENU takes a READING (R60). -/
  | earlyTraffic
  /-- VALVE_ACK: VCU takes a VALVE_ACK (R153). -/
  | valveAck
  /-- UPLINK_FRAME_RECEIVED: the bytes between two idle periods on URX (R20). -/
  | uplinkFrameReceived (frame : Bytes)
  /-- UPLINK_FRAME_SENT (R24). -/
  | uplinkFrameSent
  /-- FIELD_TX_HAND_OFF (R17). -/
  | fieldTxHandOff
  /-- FIELD_TX_ANSWER (R18). -/
  | fieldTxAnswer (answer : TxAnswer) (which : AnswerFor)
  /-- ANSWER_WAIT_EXPIRY (R18). -/
  | answerWaitExpiry
  /-- DEVICE_TIME_TICK (R175). -/
  | deviceTimeTick
  /-- SILENCE_DEADLINE of a roster entry (R38). -/
  | silenceDeadline (entry : Nat)
  /-- LOSS_DEADLINE of a roster entry (R38). -/
  | lossDeadline (entry : Nat)
  /-- WINDOW_CLOSE (R77). -/
  | windowClose (nrs : NrsTurn)
  /-- SHEET_DEADLINE of an enrollment context (R59). -/
  | sheetDeadline (ctx : Nat)
  /-- THAW_DEADLINE of a zone (R109). -/
  | thawDeadline (zone : Nat)
  /-- ALERT_TIMER_EXPIRY (R117). -/
  | alertTimerExpiry
  /-- GATHER_DEADLINE of a run slot (R127). -/
  | gatherDeadline (slot : Nat)
  /-- COMPLETION_DEADLINE of a zone's entry in a run slot (R129). -/
  | completionDeadline (slot : Nat) (zone : Nat)
  /-- FLOW_CONFIRM_DEADLINE of a run slot (R144). -/
  | flowConfirmDeadline (slot : Nat)
  /-- ACK_DEADLINE of a zone's command (R152). -/
  | ackDeadline (zone : Nat)
  /-- DRAIN_DEADLINE (R171). -/
  | drainDeadline
  /-- PULSE_LEAD_END (R165). -/
  | pulseLeadEnd
  /-- PULSE_DRIVE_END (R165). -/
  | pulseDriveEnd
  /-- PULSE_END: the end of the tail (R166). -/
  | pulseEnd
  /-- PULSE_GAP_END (R166). -/
  | pulseGapEnd
  /-- TIME_READ (R175). -/
  | timeRead (port : Port)
  /-- TIME_SET (R175). -/
  | timeSet (port : Port)
  /-- START (R176). -/
  | start (port : Port)
  /-- RESET (R177). -/
  | reset (port : Port)
  /-- STAGE_WRITE (R179). -/
  | stageWrite (port : Port)
  /-- STAGE_READ (R179). -/
  | stageRead (port : Port)
  /-- STAGE_COMMIT (R181). -/
  | stageCommit (port : Port)
  /-- STAGE_DISCARD (R182). -/
  | stageDiscard (port : Port)
  /-- TABLE_READ (R180). -/
  | tableRead (port : Port)
  /-- NODE_READ (R45). -/
  | nodeRead (port : Port)
  /-- NODE_PROBE (R45). -/
  | nodeProbe (port : Port)
  /-- RESERVE (R29). -/
  | reserve (port : Port)
  /-- ASSIGN (R30). -/
  | assign (port : Port)
  /-- RELEASE (R31). -/
  | release (port : Port)
  /-- RESTORE (R32). -/
  | restore (port : Port)
  /-- ZONE_READ (R88). -/
  | zoneRead (port : Port)
  /-- ZONE_CONTROL_IF_SET (R85). -/
  | zoneControlIfSet (port : Port)
  /-- CLEAR_VALVE (R160). -/
  | clearValve (port : Port)
  /-- RUN_OPEN (R128). -/
  | runOpen (port : Port)
  /-- RUN_CANCEL (R137). -/
  | runCancel (port : Port)
  /-- RUN_READ (R146). -/
  | runRead (port : Port)
  /-- WINDOW_READ (R80). -/
  | windowRead (port : Port)
  /-- PASS_SEND (R188). -/
  | passSend (port : Port)
  /-- WATCH_SET (R6). -/
  | watchSet (port : Port)
  /-- WATCH_CLEAR (R6). -/
  | watchClear (port : Port)
  /-- NOTICE_MASK (R185). -/
  | noticeMask (port : Port)
  /-- STATUS_READ (R187). -/
  | statusRead (port : Port)
  /-- MALFORMED_REQUEST (R173). -/
  | malformedRequest (port : Port)
  /-- POWER_ON (R189). -/
  | powerOn
  deriving DecidableEq, Repr

end Sys2Proof
end

