-- ==== Sys2Proof/Decode.lean ====
section
/-! DEFINITION. decodeTableWord: no row of spec/opcode_table.json gives bits, so no word spells a
command. -/

namespace Sys2Proof

/-- The command that a word spells by the table's bits.  Every row's "fields" list is empty and no
row has fixed bits, so the answer is none for every word. -/
def decodeTableWord (_nbits _w : Nat) : Option Instr := none

end Sys2Proof
end

