-- ==== Sys2Proof/Machine/Bytes.lean ====
section
/-! DEFINITION. Byte order and the check: multi-byte fields are sent most significant byte first,
signed fields are two's complement, and the check is a CRC-16 (11). -/

namespace Sys2Proof.Machine

def byte (n : Nat) : Byte := BitVec.ofNat 8 n

def be16 (n : Nat) : Bytes := [byte (n / 256), byte n]

def be24 (n : Nat) : Bytes := [byte (n / 65536), byte (n / 256), byte n]

def be32 (n : Nat) : Bytes := [byte (n / 16777216), byte (n / 65536), byte (n / 256), byte n]

/-- A signed 16-bit field. -/
def signed16 (i : Int) : Bytes := be16 (i % 65536).toNat

/-- A signed 32-bit field, the accumulator sum. -/
def signed32 (i : Int) : Bytes := be32 (i % 4294967296).toNat

def beId (i : NodeId) : Bytes := be24 i.toNat

/-- yes/no, on/off, set/clear (11.1). -/
def flagByte (b : Bool) : Byte := if b then 1 else 0

def nat16 (hi lo : Byte) : Nat := hi.toNat * 256 + lo.toNat

def nat32 (a b c d : Byte) : Nat := nat16 a b * 65536 + nat16 c d

def int16 (hi lo : Byte) : Int :=
  if nat16 hi lo < 32768 then (nat16 hi lo : Int) else (nat16 hi lo : Int) - 65536

def nodeId (a b c : Byte) : NodeId := BitVec.ofNat 24 (a.toNat * 65536 + nat16 b c)

/-- A node id field in which 000000h means absent (11.1). -/
def optId (i : NodeId) : Option NodeId := if i = 0 then none else some i

/-- A zone index below 40, or none of them. -/
def zoneIx? (n : Nat) : Option ZoneIx := if h : n < 40 then some ⟨n, h⟩ else none

def entryIx? (n : Nat) : Option EntryIx := if h : n < 256 then some ⟨n, h⟩ else none

def slotIx? (n : Nat) : Option SlotIx := if h : n < 12 then some ⟨n, h⟩ else none

def ctxIx? (n : Nat) : Option CtxIx := if h : n < 4 then some ⟨n, h⟩ else none

def fin4? (n : Nat) : Option (Fin 4) := if h : n < 4 then some ⟨n, h⟩ else none

def classCode? (n : Nat) : Option ClassCode := if h : n < 6 then some ⟨n, h⟩ else none

/-- One bit into the CRC register: polynomial x^16+x^12+x^5+1, 1021h (11, "The check"). -/
def crcBit (r : BitVec 16) (b : Bool) : BitVec 16 :=
  if r.msb ^^ b then (r <<< 1) ^^^ 0x1021#16 else r <<< 1

/-- One byte, most significant bit first. -/
def crcByte (r : BitVec 16) (x : Byte) : BitVec 16 :=
  [7, 6, 5, 4, 3, 2, 1, 0].foldl (fun acc i => crcBit acc (x.getLsbD i)) r

/-- The check of R2: initial value FFFFh, no final inversion. -/
def crc16 (bs : Bytes) : BitVec 16 := bs.foldl crcByte 0xFFFF#16

/-- Bytes followed by their check, high byte first. -/
def sealFrame (bs : Bytes) : Bytes := bs ++ be16 (crc16 bs).toNat

/-- The last two bytes are the check of the ones before. -/
def checkGood (bs : Bytes) : Bool :=
  decide (2 ≤ bs.length) && decide (bs = sealFrame (bs.take (bs.length - 2)))

/-- Device-time sums saturate (R175). -/
def after (t d : Nat) : Nat := min (t + d) 4294967295

/-- A quotient rounded up (R129, R150). -/
def divUp (a b : Nat) : Nat := (a + b - 1) / b

end Sys2Proof.Machine
end

