-- ==== Sys2Proof/Config.lean ====
section
/-! DEFINITION. What the manual fixes for every Renjola 3160: sizes, margins and fixed parameters.
No value of the manual is left to the implementation, so there is no free value here. -/

namespace Sys2Proof.Config

/-- Field receive FIFO (01, port capacities; R1). -/
def rxCapacity : Nat := 8

/-- Hand-off queue of each of SWU, ENU, VCU and MGU (R3). -/
def handOffCapacity : Nat := 8

/-- URGENT transmit queue (R15). -/
def urgentCapacity : Nat := 8

/-- COMMAND transmit queue; its last slot is kept for MGMT_REPLY (R15). -/
def commandCapacity : Nat := 16

/-- PASS transmit queue (R15). -/
def passCapacity : Nat := 16

/-- Field transmission answer wait in seconds (R18). -/
def answerWait : Nat := 2

/-- Uplink request queue (R21). -/
def requestCapacity : Nat := 8

/-- Uplink transmit queue (R22). -/
def uplinkCapacity : Nat := 32

/-- Ready-line margin (R22). -/
def readyMargin : Nat := 2

/-- Shedding margin for PASS_UP and REPORT (R23). -/
def shedMargin : Nat := 4

/-- Port error counts saturate here (R187). -/
def errorCountMax : Nat := 65535

/-- Device time stops here, and deadlines saturate here (R175). -/
def timeMax : Nat := 4294967295

/-- Silence and loss are counted in report intervals (R38). -/
def silenceIntervals : Nat := 3
def lossIntervals : Nat := 10

/-- Window closes a muted node waits (R36). -/
def muteCloses : Nat := 2

/-- Sheets one exchange may hold, and its sheet deadline in seconds (R52, R57). -/
def sheetLimit : Nat := 6
def sheetWait : Nat := 20

/-- Sample count cap of an accumulator (R70). -/
def sampleCap : Nat := 255

/-- Entries of an irrigation run (R120). -/
def irrigationEntries : Nat := 8

/-- Watch-to-clear margin, in tenths of a degree (06). -/
def clearMargin : Int := 5

/-- Seconds added to an irrigation OPEN's limit, and where the limit saturates (R150). -/
def limitMargin : Nat := 600
def limitMax : Nat := 65535

/-- Result data an MGMT_REPLY can carry (R191). -/
def fieldDataMax : Nat := 37

/-- RDP events that one step can hold: a bound on the recursion that takes them, never reached
(R156; log 17). -/
def eventBound : Nat := 4096

def broadcast : NodeId := 0xFFFFFF#24

end Sys2Proof.Config
end

