-- ==== Sys2Proof/Machine/State.lean ====
section
/-! DEFINITION. The state of the part as plain data, block by block, and its value after power-on. -/

namespace Sys2Proof.Machine

/-! ### Device and ports -/

/-- The two device states (00, R189). -/
inductive Device where
  | halted
  | running
  deriving DecidableEq, Repr

/-- The transceiver is told whether its frame was taken (R1). -/
inductive ArrivalAnswer where
  | taken
  | busy
  deriving DecidableEq, Repr

/-- Blocks that hold a hand-off queue (R3). -/
inductive Block where
  | swu
  | enu
  | vcu
  | mgu
  deriving DecidableEq, Repr

/-! ### Roster (02) -/

inductive Role where
  | sensor
  | valve
  | meter
  | service
  deriving DecidableEq, Repr

inductive NodeState where
  | free
  | reserved
  | enrolling
  | active
  | silent
  | lost
  | muted
  | quarantined
  deriving DecidableEq, Repr

/-- A channel record: class, calibration and latest value (02.1). -/
structure Channel where
  cls : ClassCode
  offset : Int
  scale : Nat
  latest : Option Int
  deriving DecidableEq, Repr

/-- A roster entry (02.1); its enrollment context is the one that names it (R48). -/
structure Entry where
  id : NodeId
  role : Role
  state : NodeState
  zone : Option ZoneIx
  channels : List Channel
  interval : Nat
  lastSeq : Option Byte
  lastHeard : Nat
  frames : Nat
  muteCloses : Nat
  badStreak : Nat
  note : Option Bytes
  gen : Word16
  deriving DecidableEq, Repr

/-- The free values of an entry (R25), at generation g. -/
def Entry.free (g : Word16) : Entry :=
  { id := 0, role := .sensor, state := .free, zone := none, channels := [], interval := 0,
    lastSeq := none, lastHeard := 0, frames := 0, muteCloses := 0, badStreak := 0, note := none,
    gen := g }

/-- The result of the source lookup (R9), carried with every frame handed on (R10). -/
inductive Hit where
  | none
  | window (ix : Fin 4) (zone : ZoneIx) (cls : ClassCode)
  | roster (ix : EntryIx) (state : NodeState)
  deriving DecidableEq, Repr

/-- A frame handed to a block: its bytes, the lookup result, and for a roster hit the entry's role
as FCL found it (R3, R10, R172). -/
structure HandOff where
  frame : Bytes
  hit : Hit
  role : Option Role
  deriving DecidableEq, Repr

/-- The frame FCL holds while its block's queue is full (R3). -/
structure Held where
  block : Block
  item : HandOff
  deriving DecidableEq, Repr

/-- A field transmission and the end of its answer wait (R18). -/
structure InFlight where
  frame : Bytes
  expiry : Nat
  deriving DecidableEq, Repr

/-- A watch point; ANY is none (R4). -/
structure WatchPoint where
  armed : Bool
  id : Option NodeId
  kind : Option Byte
  oneShot : Bool
  hits : Nat
  deriving DecidableEq, Repr

/-- The cleared value of a watch point (R6). -/
def WatchPoint.cleared : WatchPoint :=
  { armed := false, id := none, kind := none, oneShot := false, hits := 0 }

/-! ### Loadable tables (R42, R43, R44, R82 and the site record of 09.4) -/

structure RoleRow where
  minInterval : Nat
  maxInterval : Nat
  chatter : Nat
  allowed : Bool
  deriving DecidableEq, Repr

structure ClassRow where
  lower : Int
  upper : Int
  quarantine : Nat
  copy : Bool
  deriving DecidableEq, Repr

structure WinRow where
  enabled : Bool
  low : NodeId
  high : NodeId
  zone : ZoneIx
  cls : ClassCode
  deriving DecidableEq, Repr

structure ZoneCfg where
  inUse : Bool
  valveNode : Option NodeId
  reference : Option ZoneIx
  demand : Nat
  refill : Nat
  full : Nat
  litresPerPoint : Nat
  maxVolume : Nat
  weight : Nat
  staleLimit : Nat
  watchDry : Int
  warnWet : Int
  releaseWet : Int
  confirmCount : Nat
  releaseHold : Nat
  deriving DecidableEq, Repr

/-- The four phase lengths of an output's pulses, in milliseconds (R165). -/
structure PulseLengths where
  lead : Nat
  drive : Nat
  tail : Nat
  gap : Nat
  deriving DecidableEq, Repr

/-- Enrollment policy (R47). -/
inductive Policy where
  | anyone
  | listed
  | closed
  deriving DecidableEq, Repr

structure Site where
  controller : NodeId
  policy : Policy
  forwardStrays : Bool
  meter : Option NodeId
  capacity : Nat
  windowPeriod : Nat
  gatherTime : Nat
  alertInterval : Nat
  ackWait : Nat
  attempts : Nat
  flowLimit : Nat
  leakLimit : Nat
  drainTime : Nat
  pump : PulseLengths
  master : PulseLengths
  drain : PulseLengths
  deriving DecidableEq, Repr

/-- The five tables; the staging bank is a second copy (R178). -/
structure Tables where
  roles : Vector RoleRow 4
  classes : Vector ClassRow 6
  windows : Vector WinRow 4
  zones : Vector ZoneCfg 40
  site : Site
  deriving DecidableEq, Repr

/-! ### Enrollment contexts (R48) -/

inductive ReturnState where
  | reserved
  | free
  deriving DecidableEq, Repr

structure Calibration where
  offset : Int
  scale : Nat
  deriving DecidableEq, Repr

structure Ctx where
  entry : EntryIx
  returnTo : ReturnState
  declared : List ClassCode
  interval : Nat
  sheets : Nat
  expected : Bool
  lastAck : Option Bool
  staged : Vector (Option Calibration) 4
  stagedNote : Option Bytes
  early : Bool
  deadline : Option Nat
  deriving DecidableEq, Repr

/-! ### Sample windows (R70, R75) and fold records (R89) -/

structure Acc where
  count : Nat
  sum : Int
  min : Option Int
  max : Option Int
  overflow : Nat
  deriving DecidableEq, Repr

/-- A cleared accumulator (R76). -/
def Acc.cleared : Acc := { count := 0, sum := 0, min := none, max := none, overflow := 0 }

structure Window where
  isOpen : Bool
  openedAt : Option Nat
  closeDeadline : Option Nat
  period : Option Nat
  closedAt : Option Nat
  acc : Vector Acc 40
  deriving DecidableEq, Repr

/-- The reset values of a window (R75, R81). -/
def Window.cleared : Window :=
  { isOpen := false, openedAt := none, closeDeadline := none, period := none, closedAt := none,
    acc := Vector.replicate 40 Acc.cleared }

structure FoldRow where
  inUse : Bool
  weight : Nat
  staleLimit : Nat
  deriving DecidableEq, Repr

/-! ### Zone records (R84, R86) -/

inductive Quality where
  | fresh
  | stale
  | none
  deriving DecidableEq, Repr

inductive FrostState where
  | clear
  | watch
  | warning
  | protecting
  | thawing
  | unprotected
  deriving DecidableEq, Repr

inductive FigSource where
  | own
  | reference
  deriving DecidableEq, Repr

/-- A figure with the source it was formed from (R99). -/
structure Figure where
  value : Int
  source : FigSource
  deriving DecidableEq, Repr

inductive ValveState where
  | closed
  | opening
  | opened
  | closing
  | stuck
  deriving DecidableEq, Repr

inductive CmdKind where
  | openValve
  | closeValve
  deriving DecidableEq, Repr

/-- A zone's outstanding command (R149). -/
structure Cmd where
  kind : CmdKind
  number : Byte
  attempts : Nat
  deadline : Option Nat
  followOn : Bool
  limited : Bool
  renewal : Bool
  deriving DecidableEq, Repr

structure Zone where
  auto : Bool
  protect : Bool
  estimate : Option Int
  quality : Quality
  empty : Nat
  frost : FrostState
  confirm : Nat
  thaw : Option Nat
  ownDry : Option Int
  ownWet : Option Int
  dry : Option Figure
  wet : Option Figure
  blind : Bool
  valve : ValveState
  cmd : Option Cmd
  runSlot : Option SlotIx
  gen : Word16
  deriving DecidableEq, Repr

/-- A zone record after a reset, at generation g (R97, R118, R162). -/
def Zone.cleared (g : Word16) : Zone :=
  { auto := false, protect := false, estimate := none, quality := .none, empty := 0,
    frost := .clear, confirm := 0, thaw := none, ownDry := none, ownWet := none, dry := none,
    wet := none, blind := true, valve := .closed, cmd := none, runSlot := none, gen := g }

/-! ### Runs (R119 to R121) -/

inductive EntryState where
  | waiting
  | opening
  | opened
  | closing
  | done
  | withdrawn
  | faulted
  deriving DecidableEq, Repr

inductive FaultReason where
  | localFault
  | fault
  | noAck
  | stuck
  | flow
  deriving DecidableEq, Repr

/-- An entry's close cause; FAULT carries its fault reason (R121, R144). -/
inductive EntryCause where
  | complete
  | suspend
  | withdraw
  | fault (reason : FaultReason)
  deriving DecidableEq, Repr

structure RunEntry where
  zone : ZoneIx
  state : EntryState
  target : Option Nat
  delivered : Nat
  openSince : Option Nat
  completion : Option Nat
  closeCause : Option EntryCause
  faultReason : Option FaultReason
  shortNoted : Bool
  deriving DecidableEq, Repr

inductive RunKind where
  | irrigation
  | frost
  deriving DecidableEq, Repr

inductive Origin where
  | auto
  | request
  deriving DecidableEq, Repr

inductive RunState where
  | gathering
  | queued
  | opening
  | flowing
  | suspending
  | suspended
  | closing
  | done
  | cancelled
  | faulted
  deriving DecidableEq, Repr

inductive RunCause where
  | complete
  | cancel
  | fault
  deriving DecidableEq, Repr

/-- A run record; its slot is its place in the run queue.  serial counts creations and orders runs
by age (R120; log 18). -/
structure Run where
  number : Word16
  serial : Nat
  kind : RunKind
  origin : Origin
  state : RunState
  created : Nat
  gatherDeadline : Option Nat
  flowDeadline : Option Nat
  closeCause : Option RunCause
  entries : List RunEntry
  deriving DecidableEq, Repr

/-! ### Main line (08.8, 08.9) -/

inductive LineState where
  | idle
  | priming
  | ready
  | running
  | stopping
  | draining
  deriving DecidableEq, Repr

inductive Output where
  | pump
  | master
  | drain
  deriving DecidableEq, Repr

inductive Phase where
  | lead
  | drive
  | tail
  | gap
  deriving DecidableEq, Repr

/-- A pulse in progress: towards ON or OPEN when on is true.  passed is set when a reset has let it
run on, after which it changes no believed position and moves no state (R166). -/
structure Pulse where
  output : Output
  on : Bool
  lengths : PulseLengths
  phase : Phase
  passed : Bool
  deriving DecidableEq, Repr

/-- A pulse requested and not yet begun (R166). -/
structure PulseRequest where
  output : Output
  on : Bool
  deriving DecidableEq, Repr

structure Line where
  state : LineState
  pumpOn : Bool
  masterOpen : Bool
  drainOpen : Bool
  pulse : Option Pulse
  waiting : List PulseRequest
  demand : Bool
  frostFlowed : Bool
  pumpStart : Bool
  drainDeadline : Option Nat
  deriving DecidableEq, Repr

/-- The safe pulses of a reset, in their order (R166). -/
def Line.safePulses : List PulseRequest :=
  [{ output := .pump, on := false }, { output := .master, on := false },
   { output := .drain, on := false }]

/-- The main line as a reset leaves it before any pulse begins (R166). -/
def Line.atRest : Line :=
  { state := .idle, pumpOn := false, masterOpen := false, drainOpen := false, pulse := none,
    waiting := Line.safePulses, demand := false, frostFlowed := false, pumpStart := false,
    drainDeadline := none }

/-! ### Status (R187) -/

structure Latches where
  fieldCheck : Bool
  fieldOverrun : Bool
  uplinkCheck : Bool
  uplinkShed : Bool
  noticeGap : Bool
  reportShed : Bool
  flowFault : Bool
  leak : Bool
  runFull : Bool
  stray : Bool
  bounds : Bool
  deriving DecidableEq, Repr

/-- All latches clear (R189). -/
def Latches.clear : Latches :=
  { fieldCheck := false, fieldOverrun := false, uplinkCheck := false, uplinkShed := false,
    noticeGap := false, reportShed := false, flowFault := false, leak := false, runFull := false,
    stray := false, bounds := false }

/-- The output pins but ALERT, which FRW holds (00, "Pins"). -/
structure Pins where
  urdy : Bool
  pumpOn : Bool
  pumpOff : Bool
  mastOpn : Bool
  mastCls : Bool
  drnOpn : Bool
  drnCls : Bool
  deriving DecidableEq, Repr

/-! ### The state -/

/-- What the blocks share inside one step: the tables in force, the records, the queues out of the
part, and the work RDP has in hand. -/
structure Works where
  device : Device
  time : Nat
  tables : Tables
  /-- uplink transmit queue, the head in progress on the UART (R24) -/
  upQueue : List Bytes
  /-- slots reserved for replies (R21) -/
  reserved : Nat
  mask : Vector Bool 18
  gapPending : Bool
  latches : Latches
  fieldErrors : Nat
  uplinkErrors : Nat
  urgent : List Bytes
  command : List Bytes
  pass : List Bytes
  txSeq : Byte
  roster : Vector Entry 256
  ctxs : Vector (Option Ctx) 4
  zones : Vector Zone 40
  /-- zones whose generation this step has advanced (R87; log 6) -/
  touched : List ZoneIx
  runs : Vector (Option Run) 12
  runNumber : Word16
  runSerial : Nat
  /-- an admission pass is owed (R124) -/
  offer : Bool
  /-- closes of unsent OPENs that RDP has yet to take (R156) -/
  closes : List ZoneIx
  cmdNumber : Byte
  line : Line
  /-- the ALERT pin (R116) -/
  alert : Bool
  /-- the alert timer's next expiry; idle is none (R117) -/
  alertTimer : Option Nat
  deriving DecidableEq, Repr

/-- The whole part. -/
structure State where
  works : Works
  rxFifo : List Bytes
  arrivalAnswer : Option ArrivalAnswer
  held : Option Held
  swuQueue : List HandOff
  enuQueue : List HandOff
  vcuQueue : List HandOff
  mguQueue : List HandOff
  inFlight : Option InFlight
  requests : List Bytes
  /-- RESET is answered and MGU takes no further request (R177) -/
  resetAnswered : Bool
  windows : Vector Window 2
  folds : Vector (Option (Vector FoldRow 40)) 2
  bank : Tables
  commitPending : Bool
  watch : Vector WatchPoint 4
  pins : Pins
  /-- commands waiting, first in first out (log 1) -/
  pending : List Instr
  deriving DecidableEq, Repr

/-- Nothing in the manual stops the part, so there is no fault. -/
inductive Fault
  deriving DecidableEq, Repr

/-- Why a step has no meaning. -/
inductive Refusal where
  /-- Raised by an arm of exec for a command whose meaning is not written yet; safe.  No arm does. -/
  | notModelled (mnemonic : String)
  deriving DecidableEq, Repr

/-! ### After power-on -/

/-- Default pulse lengths, the same for each output (08, site parameters). -/
def PulseLengths.default : PulseLengths := { lead := 20, drive := 100, tail := 20, gap := 200 }

/-- Defaults of the role table (R43). -/
def Tables.defaultRoles : Vector RoleRow 4 :=
  #v[{ minInterval := 60, maxInterval := 900, chatter := 12, allowed := true },
     { minInterval := 60, maxInterval := 1800, chatter := 0, allowed := true },
     { minInterval := 10, maxInterval := 300, chatter := 0, allowed := true },
     { minInterval := 300, maxInterval := 3600, chatter := 30, allowed := true }]

/-- Defaults of the class table (R44). -/
def Tables.defaultClasses : Vector ClassRow 6 :=
  #v[{ lower := 0, upper := 1000, quarantine := 4, copy := false },
     { lower := -400, upper := 600, quarantine := 4, copy := false },
     { lower := -400, upper := 600, quarantine := 4, copy := false },
     { lower := -32768, upper := 32767, quarantine := 0, copy := true },
     { lower := 0, upper := 9999, quarantine := 0, copy := false },
     { lower := 0, upper := 1, quarantine := 0, copy := false }]

/-- Default of a direct window (R42). -/
def WinRow.default : WinRow := { enabled := false, low := 1, high := 1, zone := 0, cls := 0 }

/-- Default of a zone's configuration (R82). -/
def ZoneCfg.default : ZoneCfg :=
  { inUse := false, valveNode := none, reference := none, demand := 100, refill := 250, full := 350,
    litresPerPoint := 20, maxVolume := 4000, weight := 4, staleLimit := 3, watchDry := 30,
    warnWet := 10, releaseWet := 20, confirmCount := 2, releaseHold := 900 }

/-- Default of the site record (09.4). -/
def Site.default : Site :=
  { controller := 0x0000FE, policy := .listed, forwardStrays := false, meter := none,
    capacity := 600, windowPeriod := 900, gatherTime := 120, alertInterval := 60, ackWait := 5,
    attempts := 4, flowLimit := 90, leakLimit := 20, drainTime := 0, pump := .default,
    master := .default, drain := .default }

def Tables.default : Tables :=
  { roles := Tables.defaultRoles, classes := Tables.defaultClasses,
    windows := Vector.replicate 4 WinRow.default, zones := Vector.replicate 40 ZoneCfg.default,
    site := Site.default }

/-- The first safe pulse in its lead, the others waiting (R166). -/
def Line.powerOn : Line :=
  { Line.atRest with
    pulse := some { output := .pump, on := false, lengths := .default, phase := .lead,
                    passed := false },
    waiting := [{ output := .master, on := false }, { output := .drain, on := false }] }

def Works.powerOn : Works :=
  { device := .halted, time := 0, tables := .default, upQueue := [], reserved := 0,
    mask := Vector.replicate 18 true, gapPending := false, latches := .clear, fieldErrors := 0,
    uplinkErrors := 0, urgent := [], command := [], pass := [], txSeq := 0,
    roster := Vector.replicate 256 (Entry.free 0), ctxs := Vector.replicate 4 none,
    zones := Vector.replicate 40 (Zone.cleared 0), touched := [], runs := Vector.replicate 12 none,
    runNumber := 1, runSerial := 0, offer := false, closes := [], cmdNumber := 0,
    line := Line.powerOn, alert := false, alertTimer := none }

/-- The pins after a reset: URDY HIGH, every coil LOW (R22, R165). -/
def Pins.powerOn : Pins :=
  { urdy := true, pumpOn := false, pumpOff := false, mastOpn := false, mastCls := false,
    drnOpn := false, drnCls := false }

/-- The part right after power-on or a hard reset with no pulse running (R189 and the reset rules of
each block), with no command waiting. -/
def State.reset : State :=
  { works := .powerOn, rxFifo := [], arrivalAnswer := none, held := none, swuQueue := [],
    enuQueue := [], vcuQueue := [], mguQueue := [], inFlight := none, requests := [],
    resetAnswered := false, windows := Vector.replicate 2 Window.cleared,
    folds := Vector.replicate 2 none, bank := .default, commitPending := false,
    watch := Vector.replicate 4 WatchPoint.cleared, pins := .powerOn, pending := [] }

end Sys2Proof.Machine
end

