-- ==== Sys2Proof/Machine/Operands.lean ====
section
/-! DEFINITION. The operand forms: field frames, uplink frames and the readings, JOINs and sheets that
their payloads spell (11.2, 11.3). -/

namespace Sys2Proof.Machine

/-! ### Codes -/

def kindReading : Byte := 0x01
def kindJoin : Byte := 0x02
def kindSheet : Byte := 0x03
def kindAccept : Byte := 0x04
def kindSheetAck : Byte := 0x05
def kindRefuse : Byte := 0x06
def kindValveCmd : Byte := 0x07
def kindValveAck : Byte := 0x08
def kindAlert : Byte := 0x09
def kindMgmt : Byte := 0x0A
def kindMgmtReply : Byte := 0x0B

def upRequest : Byte := 0x01
def upReply : Byte := 0x02
def upNotice : Byte := 0x03
def upReport : Byte := 0x04
def upPassUp : Byte := 0x05

def classMoisture : ClassCode := 0
def classAirDry : ClassCode := 1
def classAirWet : ClassCode := 2
def classAux : ClassCode := 3
def classFlow : ClassCode := 4
def classValve : ClassCode := 5

/-- AIR_DRY or AIR_WET. -/
def isAir (c : ClassCode) : Bool := c == classAirDry || c == classAirWet

def Role.ix : Role → Fin 4
  | .sensor => 0
  | .valve => 1
  | .meter => 2
  | .service => 3

def role? (n : Nat) : Option Role :=
  match n with
  | 0 => some .sensor
  | 1 => some .valve
  | 2 => some .meter
  | 3 => some .service
  | _ => none

/-! ### Field frames (11.2) -/

/-- A field frame's fields between its length and its check. -/
structure FieldFrame where
  kind : Byte
  dst : NodeId
  src : NodeId
  seq : Byte
  payload : Bytes
  deriving DecidableEq, Repr

/-- The length field holds, is 12 to 52 and counts the bytes given (R2, R188). -/
def fieldLengthGood (bs : Bytes) : Bool :=
  match bs with
  | hi :: lo :: _ =>
    decide (12 ≤ nat16 hi lo) && decide (nat16 hi lo ≤ 52) && decide (nat16 hi lo = bs.length)
  | _ => false

/-- A good check in the sense of R2. -/
def fieldFrameGood (bs : Bytes) : Bool := fieldLengthGood bs && checkGood bs

/-- The fields of a frame that is long enough to hold them. -/
def fieldFrame? (bs : Bytes) : Option FieldFrame :=
  match bs with
  | _ :: _ :: k :: d2 :: d1 :: d0 :: s2 :: s1 :: s0 :: q :: rest =>
    some { kind := k, dst := nodeId d2 d1 d0, src := nodeId s2 s1 s0, seq := q,
           payload := rest.take (rest.length - 2) }
  | _ => none

/-- A field frame's bytes before its check. -/
def fieldBody (kind : Byte) (dst src : NodeId) (seq : Byte) (payload : Bytes) : Bytes :=
  be16 (12 + payload.length) ++ [kind] ++ beId dst ++ beId src ++ [seq] ++ payload

/-! ### Readings (11.2, R64) -/

structure Reading where
  channel : Nat
  cls : Nat
  raw : Int
  deriving DecidableEq, Repr

/-- Exactly n readings. -/
def readings? : Nat → Bytes → Option (List Reading)
  | 0, [] => some []
  | n + 1, c :: k :: hi :: lo :: rest =>
    (readings? n rest).map fun rs => { channel := c.toNat, cls := k.toNat, raw := int16 hi lo } :: rs
  | _, _ => none

/-- A whole list of readings: a count of 1 to 4 and exactly that many (R64). -/
def readingList? (payload : Bytes) : Option (List Reading) :=
  match payload with
  | c :: rest =>
    if 1 ≤ c.toNat ∧ c.toNat ≤ 4 then readings? c.toNat rest else none
  | [] => none

/-- Class codes of the readings a frame carries, as far as its payload spells them: what the copy
decision of R13 looks at, before SWU judges the frame (R64). -/
def readingClasses : Nat → Bytes → List Nat
  | n + 1, _ :: k :: _ :: _ :: rest => k.toNat :: readingClasses n rest
  | _, _ => []

def frameClasses (payload : Bytes) : List Nat :=
  match payload with
  | c :: rest => readingClasses c.toNat rest
  | [] => []

/-! ### JOIN (11.2, R49, R190) -/

structure Join where
  role : Role
  continues : Bool
  interval : Nat
  declared : List ClassCode
  deriving DecidableEq, Repr

def classCodes? : Bytes → Option (List ClassCode)
  | [] => some []
  | b :: rest =>
    match classCode? b.toNat, classCodes? rest with
    | some c, some cs => some (c :: cs)
    | _, _ => none

/-- A JOIN that R190 and step 1 of R49 let through. -/
def join? (payload : Bytes) : Option Join :=
  match payload with
  | r :: c :: hi :: lo :: n :: rest =>
    if rest.length = n.toNat ∧ n.toNat ≤ 4 ∧ c.toNat ≤ 1 then
      match role? r.toNat, classCodes? rest with
      | some role, some cs =>
        some { role := role, continues := c == 1, interval := nat16 hi lo, declared := cs }
      | _, _ => none
    else none
  | _ => none

/-! ### SHEET (11.2, R55, R190) -/

inductive SheetBody where
  | cal (channel : Nat) (offset : Int) (scale : Nat)
  | note (bytes : Bytes)
  | unknown
  deriving DecidableEq, Repr

structure Sheet where
  mark : Bool
  continues : Bool
  body : SheetBody
  deriving DecidableEq, Repr

def sheetBody? (ty : Byte) (body : Bytes) : Option SheetBody :=
  if ty = 0x01 then
    match body with
    | [c, o1, o0, s1, s0] => some (.cal c.toNat (int16 o1 o0) (nat16 s1 s0))
    | _ => none
  else if ty = 0x02 then
    if body.length = 8 then some (.note body) else none
  else some .unknown

/-- A SHEET that R190 lets through. -/
def sheet? (payload : Bytes) : Option Sheet :=
  match payload with
  | m :: c :: ty :: body =>
    if m.toNat ≤ 1 ∧ c.toNat ≤ 1 then
      (sheetBody? ty body).map fun b => { mark := m == 1, continues := c == 1, body := b }
    else none
  | _ => none

/-! ### VALVE_ACK (11.2, R153) -/

inductive AckResult where
  | done
  | localFault
  | fault
  deriving DecidableEq, Repr

def ackResult? (b : Byte) : Option AckResult :=
  if b = 0x01 then some .done
  else if b = 0x02 then some .localFault
  else if b = 0x03 then some .fault
  else none

/-! ### Uplink frames (11.3) -/

structure UplinkFrame where
  kind : Byte
  tag : Byte
  payload : Bytes
  deriving DecidableEq, Repr

/-- A host frame whose length field agrees with its bytes, is 6 to 256, and whose check is good
(R20). -/
def uplinkFrameGood (bs : Bytes) : Bool :=
  match bs with
  | hi :: lo :: _ =>
    decide (6 ≤ nat16 hi lo) && decide (nat16 hi lo ≤ 256) && decide (nat16 hi lo = bs.length)
      && checkGood bs
  | _ => false

def uplinkFrame? (bs : Bytes) : Option UplinkFrame :=
  match bs with
  | _ :: _ :: k :: t :: rest =>
    some { kind := k, tag := t, payload := rest.take (rest.length - 2) }
  | _ => none

/-- A whole uplink frame. -/
def uplinkFrame (kind tag : Byte) (payload : Bytes) : Bytes :=
  sealFrame (be16 (6 + payload.length) ++ [kind, tag] ++ payload)

/-- The frame is a RESET request's DONE reply (R177, 11.3). -/
def isResetReply (bs : Bytes) : Bool :=
  match uplinkFrame? bs with
  | some f => f.kind == upReply && f.payload == [0x04, 0x00]
  | none => false

end Sys2Proof.Machine
end

