-- ==== Sys2Proof/Machine/Ops.lean ====
section
/-! DEFINITION. Named operations over the tables and records: read one row, change one row, and how
the two generations advance (R26, R87). -/

namespace Sys2Proof.Machine

/-- Change row i by f. -/
def upd {α : Type} {n : Nat} (v : Vector α n) (i : Fin n) (f : α → α) : Vector α n :=
  v.set i.val (f v[i]) i.isLt

/-- Change every row. -/
def mapRows {α β : Type} {n : Nat} (f : α → β) (v : Vector α n) : Vector β n :=
  ⟨(v.toList.map f).toArray, by simp⟩

/-- All zone indices, ascending. -/
def allZones : List ZoneIx := List.finRange 40

def allEntries : List EntryIx := List.finRange 256

def allSlots : List SlotIx := List.finRange 12

/-- Irrigation slots 1 to 11 (R119). -/
def irrigationSlots : List SlotIx := allSlots.filter fun s => s != 0

/-- An enabled row covers the id, both ends included (R9). -/
def WinRow.covers (r : WinRow) (id : NodeId) : Bool :=
  r.enabled && decide (r.low ≤ id) && decide (id ≤ r.high)

namespace Works

def site (w : Works) : Site := w.tables.site

def cfg (w : Works) (z : ZoneIx) : ZoneCfg := w.tables.zones[z]

def zone (w : Works) (z : ZoneIx) : Zone := w.zones[z]

def entry (w : Works) (e : EntryIx) : Entry := w.roster[e]

def run (w : Works) (s : SlotIx) : Option Run := w.runs[s]

def ctx (w : Works) (c : CtxIx) : Option Ctx := w.ctxs[c]

/-- The part is RUNNING. -/
def running (w : Works) : Bool := w.device == .running

/-- A deadline is reached when device time equals or passes it (R175). -/
def reached (w : Works) (deadline : Nat) : Bool := decide (deadline ≤ w.time)

/-- Change fields of a zone that its generation does not cover. -/
def modZone (w : Works) (z : ZoneIx) (f : Zone → Zone) : Works :=
  { w with zones := upd w.zones z f }

def modEntry (w : Works) (e : EntryIx) (f : Entry → Entry) : Works :=
  { w with roster := upd w.roster e f }

def modRun (w : Works) (s : SlotIx) (f : Run → Run) : Works :=
  { w with runs := upd w.runs s fun r => r.map f }

def setRun (w : Works) (s : SlotIx) (r : Option Run) : Works :=
  { w with runs := upd w.runs s fun _ => r }

def setCtx (w : Works) (c : CtxIx) (x : Option Ctx) : Works :=
  { w with ctxs := upd w.ctxs c fun _ => x }

def modLine (w : Works) (f : Line → Line) : Works := { w with line := f w.line }

/-- A covered field of the zone has changed: its generation advances, once in a step (R87; log 6). -/
def touch (w : Works) (z : ZoneIx) : Works :=
  if w.touched.contains z then w
  else { w.modZone z (fun x => { x with gen := x.gen + 1 }) with touched := z :: w.touched }

/-- The valve state changes, told to ZTB in the same step (R149). -/
def setValve (w : Works) (z : ZoneIx) (v : ValveState) : Works :=
  if (w.zone z).valve = v then w else (w.modZone z fun x => { x with valve := v }).touch z

def setCmd (w : Works) (z : ZoneIx) (c : Option Cmd) : Works :=
  w.modZone z fun x => { x with cmd := c }

/-- The entry's generation advances (R26). -/
def bumpEntry (w : Works) (e : EntryIx) : Works :=
  w.modEntry e fun x => { x with gen := x.gen + 1 }

/-- The in-use zone whose valve node is this id; valve node ids are distinct among in-use zones
(R82, R183). -/
def valveZone? (w : Works) (id : NodeId) : Option ZoneIx :=
  allZones.find? fun z => (w.cfg z).inUse && (w.cfg z).valveNode == some id

/-- A roster entry with that id is ACTIVE or SILENT (R94, R123). -/
def nodeReady (w : Works) (id : NodeId) : Bool :=
  w.roster.toList.any fun e => (e.state == .active || e.state == .silent) && e.id == id

/-- A non-FREE entry holds the id. -/
def idTaken (w : Works) (id : NodeId) : Bool :=
  w.roster.toList.any fun e => e.state != .free && e.id == id

/-- The enabled direct window that covers an id; enabled windows do not overlap (R9, R183). -/
def windowOf? (w : Works) (id : NodeId) : Option (Fin 4) :=
  (List.finRange 4).find? fun i => WinRow.covers w.tables.windows[i] id

/-- The source lookup of R9 for a valid source id: the direct windows, then the non-FREE entries. -/
def lookup (w : Works) (id : NodeId) : Hit :=
  match w.windowOf? id with
  | some i => .window i w.tables.windows[i].zone w.tables.windows[i].cls
  | none =>
    match allEntries.find? fun e => (w.entry e).state != .free && (w.entry e).id == id with
    | some e => .roster e (w.entry e).state
    | none => .none

/-- 000000h, FFFFFFh and the controller id are no valid source (R9). -/
def sourceValid (w : Works) (id : NodeId) : Bool :=
  id != 0 && id != Config.broadcast && id != w.site.controller

/-- The context that serves an entry (R48). -/
def ctxOf (w : Works) (e : EntryIx) : Option CtxIx :=
  (List.finRange 4).find? fun c =>
    match w.ctx c with
    | some x => x.entry == e
    | none => false

end Works

/-- Change what the blocks share. -/
def State.onWorks (s : State) (f : Works → Works) : State := { s with works := f s.works }

/-- One of the five enrolled states (02.2). -/
def NodeState.enrolled (s : NodeState) : Bool :=
  match s with
  | .active | .silent | .lost | .muted | .quarantined => true
  | .free | .reserved | .enrolling => false

end Sys2Proof.Machine
end

