-- ==== Sys2Proof/Machine/Demand.lean ====
section
/-! DEFINITION. RDP's figures over valves, zones and runs: demand, free capacity, and who holds a zone
(R120 to R123). -/

namespace Sys2Proof.Machine

/-- A run is live while it is not terminal (R119). -/
def RunState.live (s : RunState) : Bool :=
  match s with
  | .done | .cancelled | .faulted => false
  | .gathering | .queued | .opening | .flowing | .suspending | .suspended | .closing => true

/-- An entry in WAITING, OPENING, OPEN or CLOSING is active (R121). -/
def EntryState.active (s : EntryState) : Bool :=
  match s with
  | .waiting | .opening | .opened | .closing => true
  | .done | .withdrawn | .faulted => false

/-- A valve in OPENING, OPEN or CLOSING draws admitted demand (R122). -/
def ValveState.admitted (v : ValveState) : Bool :=
  match v with
  | .opening | .opened | .closing => true
  | .closed | .stuck => false

def Run.live (r : Run) : Bool := r.state.live

/-- The run's entry for a zone (a zone appears at most once in a run, R121). -/
def Run.entry? (r : Run) (z : ZoneIx) : Option RunEntry := r.entries.find? fun e => e.zone == z

/-- Some entry stands in this state. -/
def Run.has (r : Run) (s : EntryState) : Bool := r.entries.any fun e => e.state == s

/-- Some entry is active. -/
def Run.hasActive (r : Run) : Bool := r.entries.any fun e => e.state.active

/-- Zones of the entries in a state, in join order. -/
def Run.zonesIn (r : Run) (s : EntryState) : List ZoneIx :=
  (r.entries.filter fun e => e.state == s).map RunEntry.zone

/-- Change the entry of a zone. -/
def Run.modEntry (r : Run) (z : ZoneIx) (f : RunEntry → RunEntry) : Run :=
  { r with entries := r.entries.map fun e => if e.zone = z then f e else e }

namespace Works

def demandOf (w : Works) (z : ZoneIx) : Nat := (w.cfg z).demand

def demandSum (w : Works) (zs : List ZoneIx) : Nat := (zs.map w.demandOf).sum

/-- Zones whose valve stands in one of the states p picks. -/
def zonesWithValve (w : Works) (p : ValveState → Bool) : List ZoneIx :=
  allZones.filter fun z => p (w.zone z).valve

/-- Admitted demand (R122). -/
def admittedDemand (w : Works) : Nat := w.demandSum (w.zonesWithValve ValveState.admitted)

/-- Held demand (R122). -/
def heldDemand (w : Works) : Nat := w.demandSum (w.zonesWithValve fun v => v == .stuck)

/-- Demand of zones whose valve is CLOSING, expected to come free (R132). -/
def closingDemand (w : Works) : Nat := w.demandSum (w.zonesWithValve fun v => v == .closing)

/-- Free capacity, 0 when the difference is below 0 (R122). -/
def freeCapacity (w : Works) : Nat := w.site.capacity - w.admittedDemand - w.heldDemand

/-- The zone's demand does not exceed free capacity (R123). -/
def fits (w : Works) (z : ZoneIx) : Bool := decide (w.demandOf z ≤ w.freeCapacity)

/-- A WAITING entry of the zone is admissible (R123). -/
def admissible (w : Works) (z : ZoneIx) : Bool :=
  (w.cfg z).inUse && (w.zone z).valve == .closed &&
    match (w.cfg z).valveNode with
    | some id => w.nodeReady id
    | none => false

/-- The demand total of a run: its active entries' zones (R120). -/
def demandTotal (w : Works) (r : Run) : Nat :=
  w.demandSum ((r.entries.filter fun e => e.state.active).map RunEntry.zone)

/-- The live run and entry that hold the zone with an entry in one of the states p picks; the frost
run is looked at first (R121). -/
def findEntry (w : Works) (z : ZoneIx) (p : EntryState → Bool) : Option (SlotIx × RunEntry) :=
  allSlots.findSome? fun s =>
    match w.run s with
    | some r =>
      if r.live then
        match r.entry? z with
        | some e => if p e.state then some (s, e) else none
        | none => none
      else none
    | none => none

/-- An active entry of the zone in a live irrigation run. -/
def irrigationEntry? (w : Works) (z : ZoneIx) : Option (SlotIx × RunEntry) :=
  irrigationSlots.findSome? fun s =>
    match w.run s with
    | some r =>
      if r.live then
        match r.entry? z with
        | some e => if e.state.active then some (s, e) else none
        | none => none
      else none
    | none => none

/-- The live frost run, in slot 0 (R119). -/
def frostRun? (w : Works) : Option Run :=
  match w.run 0 with
  | some r => if r.live then some r else none
  | none => none

/-- The zone's entry in the live frost run. -/
def frostEntry? (w : Works) (z : ZoneIx) : Option RunEntry := w.frostRun?.bind fun r => r.entry? z

/-- The zone has an active entry in some live run (R94, R128, R183). -/
def hasActiveEntry (w : Works) (z : ZoneIx) : Bool := (w.findEntry z EntryState.active).isSome

/-- Insert a slot by its run's age, oldest first. -/
def insertByAge (age : SlotIx → Nat) (s : SlotIx) : List SlotIx → List SlotIx
  | [] => [s]
  | t :: ts => if age s ≤ age t then s :: t :: ts else t :: insertByAge age s ts

def serialOf (w : Works) (s : SlotIx) : Nat :=
  match w.run s with
  | some r => r.serial
  | none => 0

/-- Irrigation slots whose run meets p, in creation order (R120). -/
def runsByAge (w : Works) (p : Run → Bool) : List SlotIx :=
  (irrigationSlots.filter fun s =>
      match w.run s with
      | some r => p r
      | none => false).foldr (insertByAge w.serialOf) []

/-- The run slot field follows the zone's active entries: slot 0 while a frost entry is active, else
the slot of its active irrigation entry (R121). -/
def syncRunSlot (w : Works) (z : ZoneIx) : Works :=
  let slot := (w.findEntry z EntryState.active).map Prod.fst
  if (w.zone z).runSlot = slot then w
  else (w.modZone z fun x => { x with runSlot := slot }).touch z

/-- Change the zone's entry in the run of a slot, with the run slot field following. -/
def putEntry (w : Works) (s : SlotIx) (z : ZoneIx) (f : RunEntry → RunEntry) : Works :=
  (w.modRun s fun r => r.modEntry z f).syncRunSlot z

end Works

end Sys2Proof.Machine
end

