-- ==== Sys2Proof/Machine/Codes.lean ====
section
/-! DEFINITION. How named values and optional items are coded in replies, notices and reports: in the
order the defining rule lists them unless 11.1 gives a code (11.1; log 10). -/

namespace Sys2Proof.Machine

def Device.code : Device → Byte
  | .halted => 0
  | .running => 1

def Role.code : Role → Byte
  | .sensor => 0
  | .valve => 1
  | .meter => 2
  | .service => 3

def NodeState.code : NodeState → Byte
  | .free => 0
  | .reserved => 1
  | .enrolling => 2
  | .active => 3
  | .silent => 4
  | .lost => 5
  | .muted => 6
  | .quarantined => 7

def ReturnState.toNode : ReturnState → NodeState
  | .reserved => .reserved
  | .free => .free

def Policy.code : Policy → Byte
  | .anyone => 0
  | .listed => 1
  | .closed => 2

def Quality.code : Quality → Byte
  | .fresh => 0
  | .stale => 1
  | .none => 2

def FrostState.code : FrostState → Byte
  | .clear => 0
  | .watch => 1
  | .warning => 2
  | .protecting => 3
  | .thawing => 4
  | .unprotected => 5

def FigSource.code : FigSource → Byte
  | .own => 0
  | .reference => 1

def ValveState.code : ValveState → Byte
  | .closed => 0
  | .opening => 1
  | .opened => 2
  | .closing => 3
  | .stuck => 4

/-- 01h OPEN, 02h CLOSE (11.2, VALVE_CMD). -/
def CmdKind.code : CmdKind → Byte
  | .openValve => 1
  | .closeValve => 2

def EntryState.code : EntryState → Byte
  | .waiting => 0
  | .opening => 1
  | .opened => 2
  | .closing => 3
  | .done => 4
  | .withdrawn => 5
  | .faulted => 6

def FaultReason.code : FaultReason → Byte
  | .localFault => 0
  | .fault => 1
  | .noAck => 2
  | .stuck => 3
  | .flow => 4

def EntryCause.code : EntryCause → Byte
  | .complete => 0
  | .suspend => 1
  | .withdraw => 2
  | .fault _ => 3

def RunKind.code : RunKind → Byte
  | .irrigation => 0
  | .frost => 1

def Origin.code : Origin → Byte
  | .auto => 0
  | .request => 1

def RunState.code : RunState → Byte
  | .gathering => 0
  | .queued => 1
  | .opening => 2
  | .flowing => 3
  | .suspending => 4
  | .suspended => 5
  | .closing => 6
  | .done => 7
  | .cancelled => 8
  | .faulted => 9

def RunCause.code : RunCause → Byte
  | .complete => 0
  | .cancel => 1
  | .fault => 2

def LineState.code : LineState → Byte
  | .idle => 0
  | .priming => 1
  | .ready => 2
  | .running => 3
  | .stopping => 4
  | .draining => 5

/-- The position of MASTER or DRAIN, a named value without a code of its own: OPEN, then CLOSED, in the order
of R165 (11.1).  PUMP's is on/off and a `flagByte`. -/
def valvePositionCode (isOpen : Bool) : Byte := if isOpen then 0 else 1

/-- A zone index where none or absent is allowed: FFh (11.1). -/
def zoneOrNone (z : Option ZoneIx) : Byte :=
  match z with
  | some z => byte z.val
  | none => 0xFF

/-- A node id where absent is allowed: 000000h (11.1). -/
def idOrNone (i : Option NodeId) : Bytes := beId (i.getD 0)

/-- An optional item: a presence byte, then its value field, 0 when absent (11.1). -/
def presented (present : Bool) (value : Bytes) : Bytes := flagByte present :: value

def opt8 (x : Option Byte) : Bytes := presented x.isSome [x.getD 0]

def opt16 (x : Option Nat) : Bytes := presented x.isSome (be16 (x.getD 0))

def optSigned (x : Option Int) : Bytes := presented x.isSome (signed16 (x.getD 0))

def opt32 (x : Option Nat) : Bytes := presented x.isSome (be32 (x.getD 0))

def optFigure (x : Option Figure) : Bytes := optSigned (x.map Figure.value)

/-- An optional list of n bytes. -/
def optBytes (n : Nat) (x : Option Bytes) : Bytes :=
  presented x.isSome (x.getD (List.replicate n 0))

end Sys2Proof.Machine
end

