-- ==== Sys2Proof/Machine/Flags.lean ====
section
/-! DEFINITION. The status latches and the two port error counts: set by the block that sees a
condition, cleared by STATUS.READ and by both resets (R187, R189). -/

namespace Sys2Proof.Machine.Works

def latchStray (w : Works) : Works := { w with latches := { w.latches with stray := true } }

def latchBounds (w : Works) : Works := { w with latches := { w.latches with bounds := true } }

def latchFieldOverrun (w : Works) : Works :=
  { w with latches := { w.latches with fieldOverrun := true } }

def latchUplinkShed (w : Works) : Works := { w with latches := { w.latches with uplinkShed := true } }

def latchReportShed (w : Works) : Works := { w with latches := { w.latches with reportShed := true } }

def latchFlowFault (w : Works) : Works := { w with latches := { w.latches with flowFault := true } }

def latchLeak (w : Works) : Works := { w with latches := { w.latches with leak := true } }

def latchRunFull (w : Works) : Works := { w with latches := { w.latches with runFull := true } }

/-- A dropped enabled notice: NOTICE_GAP and gap-pending (R186). -/
def latchNoticeGap (w : Works) : Works :=
  { w with latches := { w.latches with noticeGap := true }, gapPending := true }

/-- A field frame that fails verification: counted, saturating, and FIELD_CHECK (R2). -/
def countFieldError (w : Works) : Works :=
  { w with fieldErrors := min (w.fieldErrors + 1) Config.errorCountMax,
           latches := { w.latches with fieldCheck := true } }

/-- A host frame lost or dropped: counted, saturating, and UPLINK_CHECK (R20). -/
def countUplinkError (w : Works) : Works :=
  { w with uplinkErrors := min (w.uplinkErrors + 1) Config.errorCountMax,
           latches := { w.latches with uplinkCheck := true } }

/-- STATUS.READ clears the latches and both counts and leaves gap-pending (R186, R187). -/
def clearStatus (w : Works) : Works :=
  { w with latches := Latches.clear, fieldErrors := 0, uplinkErrors := 0 }

end Sys2Proof.Machine.Works
end

