-- ==== Sys2Proof/Machine/Links.lean ====
section
/-! DEFINITION. The ways out of the part: the uplink transmit queue with its margins and notices
(R21 to R23, R185, R186), and submission to the field transmit queues (R15, R16). -/

namespace Sys2Proof.Machine

/-- The eighteen notice kinds in the order of their codes (11.4). -/
inductive NoticeKind where
  | nodeLost
  | nodeBack
  | nodeMuted
  | nodeQuarantined
  | enrolled
  | enrollFailed
  | frostState
  | frostBlind
  | frostSighted
  | frostShort
  | runState
  | flowFault
  | valveFault
  | valveCleared
  | leak
  | commit
  | watchHit
  | authority
  deriving DecidableEq, Repr

/-- A kind's place in the notice mask; its code is one more. -/
def NoticeKind.ix : NoticeKind → Fin 18
  | .nodeLost => 0
  | .nodeBack => 1
  | .nodeMuted => 2
  | .nodeQuarantined => 3
  | .enrolled => 4
  | .enrollFailed => 5
  | .frostState => 6
  | .frostBlind => 7
  | .frostSighted => 8
  | .frostShort => 9
  | .runState => 10
  | .flowFault => 11
  | .valveFault => 12
  | .valveCleared => 13
  | .leak => 14
  | .commit => 15
  | .watchHit => 16
  | .authority => 17

def NoticeKind.code (k : NoticeKind) : Byte := byte (k.ix.val + 1)

/-- Causes of a PASS_UP frame (R14, 11.3). -/
inductive PassCause where
  | halted
  | foreign
  | stray
  | copy
  deriving DecidableEq, Repr

def PassCause.code : PassCause → Byte
  | .halted => 0
  | .foreign => 1
  | .stray => 2
  | .copy => 3

namespace Works

/-- Free slots of the uplink transmit queue: neither holding a frame nor reserved (R22). -/
def freeSlots (w : Works) : Nat := Config.uplinkCapacity - (w.upQueue.length + w.reserved)

def queueUp (w : Works) (frame : Bytes) : Works := { w with upQueue := w.upQueue ++ [frame] }

/-- A notice as MGU composes it (R184 and 11.3): kind, device time, subject, gap flag, detail. -/
def noticeFrame (w : Works) (k : NoticeKind) (subject : Byte) (detail : Bytes) : Bytes :=
  uplinkFrame upNotice 0
    ([k.code] ++ be32 w.time ++ [subject, flagByte w.gapPending] ++ detail)

/-- A notice handed to MGU: discarded when its kind is masked, offered otherwise, and its loss
remembered (R23, R185, R186). -/
def notice (w : Works) (k : NoticeKind) (subject : Byte) (detail : Bytes) : Works :=
  if w.mask[k.ix] then
    if 1 ≤ w.freeSlots then
      { w.queueUp (w.noticeFrame k subject detail) with gapPending := false }
    else w.latchNoticeGap
  else w

/-- Hit fields of a PASS_UP: only cause COPY carries its hit (R14, 11.3). -/
def hitBytes (c : PassCause) (h : Hit) : Bytes :=
  match c, h with
  | .copy, .window ix _ _ => [1, byte ix.val]
  | .copy, .roster ix _ => [2, byte ix.val]
  | _, _ => [0, 0]

/-- A field frame carried to the host, shed under the margin of R23 (R14). -/
def passUp (w : Works) (c : PassCause) (h : Hit) (frame : Bytes) : Works :=
  if Config.shedMargin ≤ w.freeSlots then
    w.queueUp (uplinkFrame upPassUp 0 ([c.code] ++ be32 w.time ++ hitBytes c h ++ frame))
  else w.latchUplinkShed

/-- A REPORT frame, shed under the margin of R23 (R93). -/
def report (w : Works) (payload : Bytes) : Works :=
  if Config.shedMargin ≤ w.freeSlots then w.queueUp (uplinkFrame upReport 0 payload)
  else w.latchReportShed

/-- A REPLY takes the slot reserved for it (R21, R174). -/
def reply (w : Works) (tag : Byte) (payload : Bytes) : Works :=
  { w.queueUp (uplinkFrame upReply tag payload) with reserved := w.reserved - 1 }

/-! ### Field transmission -/

/-- A frame the part composes, completed as it is taken: the controller id, the transmit sequence,
the check (R16). -/
def composed (w : Works) (kind : Byte) (dst : NodeId) (payload : Bytes) : Bytes :=
  sealFrame (fieldBody kind dst w.site.controller w.txSeq payload)

/-- URGENT takes a frame when it has a free slot (R15). -/
def submitUrgent (w : Works) (kind : Byte) (dst : NodeId) (payload : Bytes) : Works :=
  if w.urgent.length < Config.urgentCapacity then
    { w with urgent := w.urgent ++ [w.composed kind dst payload], txSeq := w.txSeq + 1 }
  else w

/-- COMMAND takes a frame other than an MGMT_REPLY only with 2 free slots (R15). -/
def submitCommand (w : Works) (kind : Byte) (dst : NodeId) (payload : Bytes) : Works :=
  if w.command.length + 2 ≤ Config.commandCapacity then
    { w with command := w.command ++ [w.composed kind dst payload], txSeq := w.txSeq + 1 }
  else w

/-- COMMAND takes an MGMT_REPLY when it has a free slot; a refused one is lost (R15, R174). -/
def submitReply (w : Works) (dst : NodeId) (payload : Bytes) : Works :=
  if w.command.length < Config.commandCapacity then
    { w with command := w.command ++ [w.composed kindMgmtReply dst payload], txSeq := w.txSeq + 1 }
  else w

/-- A PASS.SEND frame keeps its fields and gets a new check (R16, R188). -/
def submitPass (w : Works) (frame : Bytes) : Works :=
  { w with pass := w.pass ++ [sealFrame (frame.take (frame.length - 2))] }

end Works

end Sys2Proof.Machine
end

