-- ==== Sys2Proof/Machine/Valve.lean ====
section
/-! DEFINITION. VCU's commands: attempts and their limits (R150, R151), close requests (R156),
follow-on (R157) and renewals (R158). -/

namespace Sys2Proof.Machine.Works

/-- OPENs are sent only while the main line is READY or RUNNING (R151). -/
def lineSends (w : Works) : Bool := w.line.state == .ready || w.line.state == .running

/-- The limit of an OPEN attempt, from the entry as it stands: 0 for a frost entry (R150). -/
def openLimit (w : Works) (z : ZoneIx) : Nat :=
  match w.findEntry z (fun s => s == .opening || s == .opened) with
  | some (_, e) =>
    match e.target with
    | some t =>
      min (divUp ((t - e.delivered) * 60) (w.demandOf z) + Config.limitMargin) Config.limitMax
    | none => 0
  | none => 0

/-- One attempt of the zone's outstanding command: counted, timed and submitted, taken or not
(R150). -/
def attempt (w : Works) (z : ZoneIx) : Works :=
  match (w.zone z).cmd with
  | none => w
  | some c =>
    let limit := match c.kind with
      | .openValve => w.openLimit z
      | .closeValve => 0
    let w1 := w.setCmd z (some
      { c with attempts := c.attempts + 1, deadline := some (after w.time w.site.ackWait),
               limited := c.limited || decide (0 < limit) })
    let payload := [c.kind.code, c.number] ++ be16 limit
    match (w.cfg z).valveNode, c.kind with
    | some id, .openValve => w1.submitCommand kindValveCmd id payload
    | some id, .closeValve => w1.submitUrgent kindValveCmd id payload
    | none, _ => w1

/-- A new command takes the next number and makes its first attempt at once, unless it is an OPEN
that the main line does not allow (R149, R150, R151). -/
def createCmd (w : Works) (z : ZoneIx) (kind : CmdKind) (renewal : Bool) : Works :=
  let w1 := { w.setCmd z (some { kind := kind, number := w.cmdNumber, attempts := 0,
                                 deadline := none, followOn := false, limited := false,
                                 renewal := renewal }) with cmdNumber := w.cmdNumber + 1 }
  if kind = .closeValve ∨ w.lineSends then w1.attempt z else w1

/-- RDP asks for the valve to open at an admission (R123). -/
def openRequest (w : Works) (z : ZoneIx) : Works :=
  (w.setValve z .opening).createCmd z .openValve false

/-- A CLOSE that replaces whatever is outstanding. -/
def closeNow (w : Works) (z : ZoneIx) : Works :=
  ((w.setCmd z none).setValve z .closing).createCmd z .closeValve false

/-- RDP asks for the valve to close (R156).  A dropped unsent OPEN closes the valve at once, and RDP
takes that close as an event of its own. -/
def closeRequest (w : Works) (z : ZoneIx) : Works :=
  match (w.zone z).valve, (w.zone z).cmd with
  | .opened, _ => w.closeNow z
  | .opening, some c =>
    if c.attempts = 0 then
      { ((w.setCmd z none).setValve z .closed) with closes := w.closes ++ [z] }
    else w.closeNow z
  | .opening, none => w.closeNow z
  | .closing, some c => w.setCmd z (some { c with followOn := false })
  | .closing, none => w
  | .closed, _ => w
  | .stuck, _ => w

/-- RDP asks for a CLOSING valve to open again: the CLOSE's follow-on flag is set (R157). -/
def setFollowOn (w : Works) (z : ZoneIx) : Works :=
  match (w.zone z).cmd with
  | some c => w.setCmd z (some { c with followOn := true })
  | none => w

/-- A renewal restates the limit of a valve that is already OPEN, replacing one outstanding
(R158). -/
def renew (w : Works) (z : ZoneIx) : Works := w.createCmd z .openValve true

/-- VCU makes the first attempt of every unsent OPEN, in ascending zone index (R151). -/
def sendHeld (w : Works) : Works :=
  allZones.foldl (fun w z =>
    match (w.zone z).cmd with
    | some c => if c.kind = .openValve ∧ c.attempts = 0 then w.attempt z else w
    | none => w) w

/-- A run that flows gets a flow-confirm deadline when the site has a meter (R163). -/
def startFlowDeadline (w : Works) (s : SlotIx) : Works :=
  match w.site.meter with
  | some _ => w.modRun s fun r => { r with flowDeadline := some (after w.time w.site.flowLimit) }
  | none => w

/-- The pump has started: each run then FLOWING gets a deadline (R163). -/
def pumpStarted (w : Works) : Works :=
  allSlots.foldl (fun w s =>
    match w.run s with
    | some r => if r.state = .flowing then w.startFlowDeadline s else w
    | none => w) w

end Sys2Proof.Machine.Works
end

