-- ==== Sys2Proof/Machine/MainLine.lean ====
section
/-! DEFINITION. MLD: pulses (R165, R166) and the main-line states (R167 to R171). -/

namespace Sys2Proof.Machine

/-- The lengths of an output's pulses in the active site record (R165). -/
def Site.lengths (x : Site) : Output → PulseLengths
  | .pump => x.pump
  | .master => x.master
  | .drain => x.drain

namespace Works

/-- When no pulse is in progress and no gap is running, the first pending pulse begins with the
lengths in force (R165, R184).  A safe pulse still pending at an activation so takes the new lengths, where
R166 speaks of the record as the reset leaves it: the model's choice (log 47). -/
def beginPulse (w : Works) : Works :=
  match w.line.pulse, w.line.waiting with
  | none, p :: ps =>
    w.modLine fun l =>
      { l with pulse := some { output := p.output, on := p.on, lengths := w.site.lengths p.output,
                               phase := .lead, passed := false },
               waiting := ps }
  | _, _ => w

/-- MLD requests a pulse behind those already requested (R166). -/
def requestPulse (w : Works) (o : Output) (on : Bool) : Works :=
  (w.modLine fun l => { l with waiting := l.waiting ++ [{ output := o, on := on }] }).beginPulse

def setLine (w : Works) (s : LineState) : Works := w.modLine fun l => { l with state := s }

/-- PRIMING, with its MASTER OPEN pulse (R168). -/
def enterPriming (w : Works) : Works := (w.setLine .priming).requestPulse .master true

/-- STOPPING, with PUMP OFF and then MASTER CLOSE, whatever state it came from (R170). -/
def enterStopping (w : Works) : Works :=
  ((w.setLine .stopping).requestPulse .pump false).requestPulse .master false

/-- DRAINING, with DRAIN OPEN and the drain deadline (R171). -/
def enterDraining (w : Works) : Works :=
  ((w.setLine .draining).requestPulse .drain true).modLine fun l =>
    { l with drainDeadline := some (after w.time w.site.drainTime) }

/-- The drain deadline is dropped and DRAIN CLOSE requested (R171). -/
def endDrain (w : Works) : Works :=
  (w.modLine fun l => { l with drainDeadline := none }).requestPulse .drain false

/-- RDP reports that admitted demand has become greater than 0 (R167, R168, R171). -/
def demandRise (w : Works) : Works :=
  let w1 := w.modLine fun l => { l with demand := true }
  match w.line.state, w.line.drainDeadline with
  | .idle, _ => w1.enterPriming
  | .draining, some _ => w1.endDrain
  | _, _ => w1

/-- RDP reports that admitted demand has become 0 (R167, R169). -/
def demandFall (w : Works) : Works :=
  let w1 := w.modLine fun l => { l with demand := false }
  match w.line.state with
  | .ready => if w.line.pumpStart then w1 else w1.enterStopping
  | .running => w1.enterStopping
  | _ => w1

/-- RDP's judgement when its work on an event is complete (R122). -/
def tellLine (w : Works) : Works :=
  if 0 < w.admittedDemand then (if w.line.demand then w else w.demandRise)
  else if w.line.demand then w.demandFall
  else w

/-- RDP reports that the frost run has become FLOWING (R167). -/
def frostFlows (w : Works) : Works := w.modLine fun l => { l with frostFlowed := true }

/-- VCU reports an acknowledged OPEN while PUMP is believed OFF: in READY the pump start is requested
once (R154, R169). -/
def openReported (w : Works) : Works :=
  if w.line.pumpOn then w
  else if w.line.state = .ready ∧ w.line.pumpStart = false then
    (w.modLine fun l => { l with pumpStart := true }).requestPulse .pump true
  else w

/-- A sequence that ends with the demand flag clear goes straight to STOPPING (R168, R169). -/
def stopIfIdle (w : Works) : Works := if w.line.demand then w else w.enterStopping

/-- The end of MASTER CLOSE in STOPPING (R170). -/
def stopComplete (w : Works) : Works :=
  if w.line.demand then w.enterPriming
  else if w.line.frostFlowed ∧ 0 < w.site.drainTime then w.enterDraining
  else (w.setLine .idle).modLine fun l => { l with frostFlowed := false }

/-- The end of DRAIN CLOSE in DRAINING (R171). -/
def drainComplete (w : Works) : Works :=
  let w1 := w.modLine fun l => { l with frostFlowed := false }
  if w1.line.demand then w1.enterPriming else w1.setLine .idle

/-- What the end of a pulse moves (R168 to R171). -/
def lineAfterPulse (w : Works) (o : Output) (on : Bool) : Works :=
  match w.line.state, o, on with
  | .priming, .master, true => ((w.setLine .ready).sendHeld).stopIfIdle
  | .ready, .pump, true =>
    ((w.modLine fun l => { l with state := .running, pumpStart := false }).pumpStarted).stopIfIdle
  | .stopping, .master, false => w.stopComplete
  | .draining, .drain, false => w.drainComplete
  | _, _, _ => w

/-- The believed position of an output (R165). -/
def believe (w : Works) (o : Output) (on : Bool) : Works :=
  w.modLine fun l =>
    match o with
    | .pump => { l with pumpOn := on }
    | .master => { l with masterOpen := on }
    | .drain => { l with drainOpen := on }

def setPhase (w : Works) (p : Pulse) (ph : Phase) : Works :=
  w.modLine fun l => { l with pulse := some { p with phase := ph } }

end Works

end Sys2Proof.Machine
end

