-- ==== Sys2Proof/Machine/FrostState.lean ====
section
/-! DEFINITION. A change of frost state with its notice (R115), the ALERT pin and its timer (R116,
R117), and what FRW does on the Run Dispatcher's reports (R107, R111). -/

namespace Sys2Proof.Machine

/-- Causes of a FROST_STATE notice, in the order R115 lists them. -/
inductive FrostCause where
  | reading
  | node
  | activation
  | entry
  | thaw
  | control
  | valve
  deriving DecidableEq, Repr

def FrostCause.code : FrostCause → Byte
  | .reading => 0
  | .node => 1
  | .activation => 2
  | .entry => 3
  | .thaw => 4
  | .control => 5
  | .valve => 6

/-- A zone in one of these four states is listed in ALERT frames, with this code (R116, 11.2). -/
def FrostState.alertCode : FrostState → Option Nat
  | .clear => none
  | .watch => none
  | .warning => some 0
  | .protecting => some 1
  | .thawing => some 2
  | .unprotected => some 3

def FrostState.alerting (s : FrostState) : Bool := s.alertCode.isSome

namespace Works

/-- Some zone is in WARNING, PROTECTING, THAWING or UNPROTECTED (R116). -/
def anyAlerting (w : Works) : Bool := allZones.any fun z => (w.zone z).frost.alerting

/-- The listing of an ALERT frame, in ascending zone index (R117, 11.2). -/
def alertPayload (w : Works) : Bytes :=
  allZones.filterMap fun z => (w.zone z).frost.alertCode.map fun c => byte (c * 64 + z.val)

/-- FRW composes and submits an ALERT frame and sets the next expiry (R117). -/
def sendAlert (w : Works) : Works :=
  { w.submitUrgent kindAlert Config.broadcast w.alertPayload with
    alertTimer := some (after w.time w.site.alertInterval) }

/-- FRW drives the ALERT pin in the step of the frost state change (R116, R117). -/
def driveAlert (w : Works) : Works :=
  if w.anyAlerting then
    if w.alert then w else { w with alert := true }.sendAlert
  else { w with alert := false, alertTimer := none }

/-- The detail of a FROST_STATE notice (R115). -/
def frostDetail (w : Works) (z : ZoneIx) (old : FrostState) (cause : FrostCause) : Bytes :=
  [old.code, (w.zone z).frost.code, cause.code] ++ optFigure (w.zone z).dry
    ++ optFigure (w.zone z).wet

/-- The zone changes frost state: confirm counter 0 (R104), the thaw deadline as given, the
generation (R87), the ALERT pin, then the notice (R115). -/
def setFrost (w : Works) (z : ZoneIx) (new : FrostState) (thaw : Option Nat) (cause : FrostCause) :
    Works :=
  if (w.zone z).frost = new then w
  else
    let w1 := ((w.modZone z fun x => { x with frost := new, confirm := 0, thaw := thaw }).touch
      z).driveAlert
    w1.notice .frostState (byte z.val) (w1.frostDetail z (w.zone z).frost cause)

/-- Where a zone settles (R104). -/
def settledState (w : Works) (z : ZoneIx) : FrostState :=
  match (w.zone z).dry with
  | some f => if (w.cfg z).watchDry + Config.clearMargin ≤ f.value then .clear else .watch
  | none => .watch

/-- The zone is settled (R104). -/
def settleZone (w : Works) (z : ZoneIx) (cause : FrostCause) : Works :=
  w.setFrost z (w.settledState z) none cause

/-- The wet figure is below release wet, or absent (R112, R113). -/
def wetBelowRelease (w : Works) (z : ZoneIx) : Bool :=
  match (w.zone z).wet with
  | some f => decide (f.value < (w.cfg z).releaseWet)
  | none => true

/-- entry open: a zone in WARNING goes to PROTECTING (R107). -/
def entryOpen (w : Works) (z : ZoneIx) : Works :=
  if (w.zone z).frost = .warning then w.setFrost z .protecting none .entry else w

/-- entry back: a zone in PROTECTING or THAWING goes to WARNING (R111). -/
def entryBack (w : Works) (z : ZoneIx) : Works :=
  match (w.zone z).frost with
  | .protecting | .thawing => w.setFrost z .warning none .entry
  | .clear | .watch | .warning | .unprotected => w

/-- entry faulted: a zone in WARNING, PROTECTING or THAWING goes to UNPROTECTED (R111). -/
def entryFaulted (w : Works) (z : ZoneIx) : Works :=
  match (w.zone z).frost with
  | .warning | .protecting | .thawing => w.setFrost z .unprotected none .entry
  | .clear | .watch | .unprotected => w

end Works

end Sys2Proof.Machine
end

