-- ==== Sys2Proof/Machine/Runs.lean ====
section
/-! DEFINITION. RDP: run states and their notices, admission (R123 to R125), suspension (R132, R133),
closes and faults (R130, R139 to R144), and how one event's work is taken to its end (R122, R124,
R156). -/

namespace Sys2Proof.Machine

/-! ### Entries -/

/-- An entry that waits (R127, R128, R134). -/
def RunEntry.waiting (z : ZoneIx) (target : Option Nat) : RunEntry :=
  { zone := z, state := .waiting, target := target, delivered := 0, openSince := none,
    completion := none, closeCause := none, faultReason := none, shortNoted := false }

/-- An OPEN irrigation entry is credited with the water it has had, truncated, and never beyond its
target (R129). -/
def RunEntry.credit (e : RunEntry) (time demand : Nat) : RunEntry :=
  match e.state, e.target, e.openSince with
  | .opened, some t, some o => { e with delivered := min t (e.delivered + (time - o) * demand / 60) }
  | _, _, _ => e

/-- The entry stands in a new state, with the fields that belong to OPEN and CLOSING dropped
(R121). -/
def RunEntry.become (e : RunEntry) (s : EntryState) : RunEntry :=
  { e with state := s, openSince := none, completion := none, closeCause := none }

/-- To CLOSING with a close cause (R121). -/
def RunEntry.toClosing (e : RunEntry) (c : EntryCause) : RunEntry :=
  { e.become .closing with closeCause := some c }

/-- To FAULTED with a fault reason (R121). -/
def RunEntry.toFaulted (e : RunEntry) (r : FaultReason) : RunEntry :=
  { e.become .faulted with faultReason := some r }

/-- To OPEN; an irrigation entry gets its completion deadline from what remains of its target
(R129). -/
def RunEntry.toOpen (e : RunEntry) (time demand : Nat) : RunEntry :=
  { e.become .opened with
    openSince := some time,
    completion := e.target.map fun t => after time (divUp ((t - e.delivered) * 60) demand) }

/-- A CLOSING entry whose valve has closed ends or returns by its close cause (R130). -/
def RunEntry.closed (e : RunEntry) : RunEntry :=
  match e.closeCause with
  | some .complete => e.become .done
  | some .suspend => if e.target.getD 0 ≤ e.delivered then e.become .done else e.become .waiting
  | some .withdraw => e.become .withdrawn
  | some (.fault r) => e.toFaulted r
  | none => e

/-! ### Runs -/

/-- How an irrigation run ends (R131). -/
def Run.ending (r : Run) : RunState :=
  match r.state, r.closeCause with
  | .closing, some .cancel => .cancelled
  | .closing, some .fault => .faulted
  | _, _ =>
    if r.has .done then .done else if r.has .faulted then .faulted else .cancelled

/-- The frost run's state from its entries (R134). -/
def Run.frostState (r : Run) : RunState :=
  if r.has .opened then .flowing
  else if r.has .opening then .opening
  else if r.has .waiting then .queued
  else if r.has .closing then .closing
  else .done

namespace Works

/-- The detail of a RUN_STATE notice (R147). -/
def runDetail (w : Works) (s : SlotIx) (r : Run) (old : Option RunState) : Bytes :=
  [byte s.val] ++ be16 r.number.toNat ++ [r.kind.code, r.origin.code] ++ opt8 (old.map RunState.code)
    ++ [r.state.code, byte r.entries.length] ++ be32 (w.demandTotal r)

def runNotice (w : Works) (s : SlotIx) (old : Option RunState) : Works :=
  match w.run s with
  | some r => w.notice .runState (byte s.val) (w.runDetail s r old)
  | none => w

/-- A run that has become FLOWING: MLD is told of the frost run, and with the pump running VCU sets
the flow-confirm deadline (R122, R163). -/
def nowFlowing (w : Works) (s : SlotIx) : Works :=
  let w1 := if s = 0 then w.frostFlows else w
  if w1.line.state = .running then w1.startFlowDeadline s else w1

/-- A run changes state: what belongs to the old state is dropped, the notice follows (R120, R131,
R147). -/
def setRunState (w : Works) (s : SlotIx) (new : RunState) (cause : Option RunCause) : Works :=
  match w.run s with
  | none => w
  | some r =>
    if r.state = new then w
    else
      let w1 := w.modRun s fun r =>
        { r with state := new, closeCause := cause,
                 gatherDeadline := if new = .gathering then r.gatherDeadline else none,
                 flowDeadline := if new = .flowing then r.flowDeadline else none }
      let w2 := w1.runNotice s (some r.state)
      if new = .flowing then w2.nowFlowing s else w2

/-- A run is created in its slot: its number, its entries' run slots, its notice (R119, R147). -/
def createRun (w : Works) (s : SlotIx) (kind : RunKind) (origin : Origin) (state : RunState)
    (gather : Option Nat) (entries : List RunEntry) : Works :=
  let r : Run :=
    { number := w.runNumber, serial := w.runSerial, kind := kind, origin := origin, state := state,
      created := w.time, gatherDeadline := gather, flowDeadline := none, closeCause := none,
      entries := entries }
  let w1 := { w.setRun s (some r) with
              runNumber := if w.runNumber = 0xFFFF#16 then 1 else w.runNumber + 1,
              runSerial := w.runSerial + 1 }
  let w2 := (entries.map RunEntry.zone).foldl syncRunSlot w1
  let w3 := w2.runNotice s none
  if state = .flowing then w3.nowFlowing s else w3

/-- The slot a new irrigation run takes (R119). -/
def newSlot? (w : Works) : Option SlotIx :=
  match irrigationSlots.find? fun s => (w.run s).isNone with
  | some s => some s
  | none => (w.runsByAge fun r => !r.live).head?

def offerAdmission (w : Works) : Works := { w with offer := true }

/-- An irrigation run is judged after a change of its entries (R126, R131, R133). -/
def judgeIrrigation (w : Works) (s : SlotIx) : Works :=
  match w.run s with
  | none => w
  | some r =>
    match r.state with
    | .gathering => w
    | .queued | .suspended | .closing =>
      if r.hasActive then w else w.setRunState s r.ending none
    | .opening | .flowing =>
      if !r.hasActive then w.setRunState s r.ending none
      else if !(r.has .waiting || r.has .opening || r.has .opened) then
        w.setRunState s .closing (some .complete)
      else if r.state = .opening ∧ !r.has .opening ∧ r.has .opened then
        w.setRunState s .flowing none
      else w
    | .suspending =>
      if r.has .closing then w
      else if r.has .waiting then (w.setRunState s .suspended none).offerAdmission
      else w.setRunState s r.ending none
    | .done | .cancelled | .faulted => w

/-- The frost run is judged after a change of its entries (R134; no close cause, log 19). -/
def judgeFrost (w : Works) : Works :=
  match w.frostRun? with
  | none => w
  | some r => w.setRunState 0 r.frostState none

def judgeRun (w : Works) (s : SlotIx) : Works :=
  if s = 0 then w.judgeFrost else w.judgeIrrigation s

/-- An entry goes to CLOSING, credited if it was OPEN, and VCU is asked to close its valve (R129,
R133, R136, R137, R144). -/
def sendClosing (w : Works) (s : SlotIx) (c : EntryCause) (z : ZoneIx) : Works :=
  (w.putEntry s z fun e => (e.credit w.time (w.demandOf z)).toClosing c).closeRequest z

/-! ### Admission -/

/-- An entry is admitted: WAITING to OPENING, its valve CLOSED to OPENING, VCU asked to open it
(R123). -/
def admitEntry (w : Works) (s : SlotIx) (z : ZoneIx) : Works :=
  (w.putEntry s z fun e => e.become .opening).openRequest z

/-- A FROST_SHORT notice, once for an entry, with free capacity as it stands when the notice is sent (R125,
R132, R147; log 20). -/
def frostShort (w : Works) (z : ZoneIx) (expected : Nat) (suspendedRuns : Nat) : Works :=
  match w.frostEntry? z with
  | some e =>
    if e.shortNoted then w
    else
      (w.putEntry 0 z fun e => { e with shortNoted := true }).notice .frostShort (byte z.val)
        ([byte z.val] ++ be16 (w.demandOf z) ++ be16 w.freeCapacity ++ be32 w.heldDemand
          ++ be16 expected ++ [byte suspendedRuns])
  | none => w

/-- A run is suspended: SUSPENDING, and its OPEN and OPENING entries to CLOSING, in join order (R133 gives
none; log 43). -/
def suspendRun (w : Works) (s : SlotIx) : Works :=
  match w.run s with
  | none => w
  | some r =>
    let w1 := w.setRunState s .suspending none
    let w2 := (r.entries.filter fun e => e.state == .opened || e.state == .opening).foldl
      (fun w e => w.sendClosing s .suspend e.zone) w1
    w2.judgeIrrigation s

/-- What suspending a run adds to the expected free capacity: its zones in OPENING or OPEN (R132;
log 24). -/
def suspensionYield (w : Works) (s : SlotIx) : Nat :=
  match w.run s with
  | some r => w.demandSum (r.zonesIn .opening ++ r.zonesIn .opened)
  | none => 0

/-- Runs are suspended in the order given until the expected free capacity covers the need; what was
expected and how many were suspended are carried along (R132). -/
def suspendRuns (need : Nat) : List SlotIx → Works → Nat → Nat → Works × Nat × Nat
  | [], w, expected, n => (w, expected, n)
  | s :: ss, w, expected, n =>
    if need ≤ expected then (w, expected, n)
    else suspendRuns need ss (w.suspendRun s) (expected + w.suspensionYield s) (n + 1)

/-- The suspension judgment for the first admissible frost entry that does not fit: newest run first
(R132).  A FROST_SHORT comes after the suspensions, so its free capacity counts the demand of unsent OPENs
that they dropped (log 20). -/
def suspensionJudgment (w : Works) (z : ZoneIx) : Works :=
  let newestFirst := (w.runsByAge fun r => r.state == .opening || r.state == .flowing).reverse
  let (w1, expected, n) :=
    suspendRuns (w.demandOf z) newestFirst w (w.freeCapacity + w.closingDemand) 0
  if expected < w.demandOf z then w1.frostShort z expected n else w1

/-- Class 1 of an admission pass: frost entries in join order.  The answer says whether the pass goes
on (R125).  An entry that is not admissible is passed over before its demand is looked at, so it raises
no FROST_SHORT (log 20). -/
def passFrost : List ZoneIx → Works → Works × Bool
  | [], w => (w, true)
  | z :: zs, w =>
    if !w.admissible z then passFrost zs w
    else if w.site.capacity < w.demandOf z then
      passFrost zs (w.frostShort z (w.freeCapacity + w.closingDemand) 0)
    else if w.fits z then passFrost zs ((w.admitEntry 0 z).judgeFrost)
    else (w.suspensionJudgment z, false)

/-- Class 2: entries returned to WAITING by a valve node restart (R125). -/
def passReadmit : List (SlotIx × ZoneIx) → Works → Works × Bool
  | [], w => (w, true)
  | (s, z) :: rest, w =>
    if !w.admissible z then passReadmit rest w
    else if w.fits z then passReadmit rest ((w.admitEntry s z).judgeIrrigation s)
    else (w, false)

/-- The WAITING zones of a run. -/
def waitingZones (w : Works) (s : SlotIx) : List ZoneIx :=
  match w.run s with
  | some r => r.zonesIn .waiting
  | none => []

/-- Every WAITING entry of a run is admitted and the run goes to OPENING (R125).  The OPENs are created in
join order, which is the order of their numbers (R149 gives none; log 43). -/
def admitRun (w : Works) (s : SlotIx) : Works :=
  ((w.waitingZones s).foldl (fun w z => w.admitEntry s z) w).setRunState s .opening none

def runAdmissible (w : Works) (s : SlotIx) : Bool := (w.waitingZones s).all w.admissible

def runFits (w : Works) (s : SlotIx) : Bool :=
  decide (w.demandSum (w.waitingZones s) ≤ w.freeCapacity)

/-- Class 3: SUSPENDED runs, oldest first, each whole (R125). -/
def passSuspended : List SlotIx → Works → Works × Bool
  | [], w => (w, true)
  | s :: ss, w =>
    if !w.runAdmissible s then passSuspended ss w
    else if w.runFits s then passSuspended ss (w.admitRun s)
    else (w, false)

/-- Class 4: QUEUED irrigation runs, oldest first, none overtaken (R125). -/
def passQueued : List SlotIx → Works → Works
  | [], w => w
  | s :: ss, w =>
    if w.runAdmissible s && w.runFits s then passQueued ss (w.admitRun s) else w

/-- One admission pass, carried out whole (R125). -/
def admissionPass (w : Works) : Works :=
  let frost := match w.frostRun? with
    | some r => r.zonesIn .waiting
    | none => []
  match passFrost frost w with
  | (w1, false) => w1
  | (w1, true) =>
    let flowing := w1.runsByAge fun r => r.state == .opening || r.state == .flowing
    match passReadmit (flowing.flatMap fun s => (w1.waitingZones s).map fun z => (s, z)) w1 with
    | (w2, false) => w2
    | (w2, true) =>
      match passSuspended (w2.runsByAge fun r => r.state == .suspended) w2 with
      | (w3, false) => w3
      | (w3, true) => passQueued (w3.runsByAge fun r => r.state == .queued) w3

/-- The pass that is owed, if any (R124). -/
def runOffer (w : Works) : Works :=
  if w.offer then { w with offer := false }.admissionPass else w

/-! ### Events -/

/-- VCU reports a valve CLOSED: the zone's CLOSING entry ends or returns, its run is judged, and
admission is offered (R130). -/
def closeReport (w : Works) (z : ZoneIx) : Works :=
  match w.findEntry z (fun s => s == .closing) with
  | some (s, _) => ((w.putEntry s z RunEntry.closed).judgeRun s).offerAdmission
  | none => w.offerAdmission

/-- RDP takes its work to the end: the pass owed, the report to MLD, then the next waiting close as
an event of its own (R122, R124, R156; log 17).  Several waiting closes are taken first in, first out (R156
gives no order; log 43). -/
def settleEvents : Nat → Works → Works
  | 0, w => { w with offer := false, closes := [] }
  | n + 1, w =>
    if w.offer then settleEvents n w.runOffer
    else
      match w.closes with
      | [] => w.tellLine
      | z :: zs => settleEvents n ({ w.tellLine with closes := zs }.closeReport z)

/-- One event of RDP whose own work is f. -/
def rdpEvent (w : Works) (f : Works → Works) : Works := settleEvents Config.eventBound (f w)

/-- VCU reports an OPEN acknowledged DONE (R129). -/
def openDone (w : Works) (z : ZoneIx) : Works :=
  match w.findEntry z (fun s => s == .opening) with
  | some (s, _) =>
    let w1 := w.putEntry s z fun e => e.toOpen w.time (w.demandOf z)
    let w2 := if s = 0 then w1.entryOpen z else w1
    w2.judgeRun s
  | none => w

/-- A faulted entry's run is judged, and FRW told of a frost entry (R139, R140). -/
def faultEntry (w : Works) (s : SlotIx) (z : ZoneIx) (r : FaultReason) : Works :=
  let w1 := w.putEntry s z fun e => e.toFaulted r
  let w2 := if s = 0 then w1.entryFaulted z else w1
  w2.judgeRun s

/-- VCU reports a failed OPEN (R139). -/
def openFailed (w : Works) (z : ZoneIx) (r : FaultReason) : Works :=
  match w.findEntry z (fun s => s == .opening) with
  | some (s, _) => w.faultEntry s z r
  | none => w

/-- VCU reports the valve STUCK: the zone's CLOSING and WAITING entries are FAULTED, and so is an
OPENING entry that waited for a follow-on (R140, R157).  Of two entries of the zone the one in the lower
slot, so the frost entry, is FAULTED first (log 43). -/
def valveStuck (w : Works) (z : ZoneIx) : Works :=
  allSlots.foldl (fun w s =>
    match w.run s with
    | some r =>
      if r.live then
        match r.entry? z with
        | some e =>
          match e.state with
          | .closing | .waiting | .opening => w.faultEntry s z .stuck
          | .opened | .done | .withdrawn | .faulted => w
        | none => w
      else w
    | none => w) w

/-- The restarted node's zone: its entry in one run returns to WAITING or ends (R143).  An irrigation run
keeps its state when an entry returns; the frost run's follows from its entries as always (R134; log
42), after the entry-back report, so FROST_STATE precedes RUN_STATE (R111, R115 and R143 give no order; log
46).  A CLOSING entry ends as if its close had been acknowledged (R130). -/
def restartEntry (w : Works) (z : ZoneIx) (s : SlotIx) : Works :=
  match w.run s with
  | some r =>
    if r.live then
      match r.entry? z with
      | some e =>
        match e.state with
        | .opened | .opening =>
          let w1 := w.putEntry s z fun e => (e.credit w.time (w.demandOf z)).become .waiting
          if s = 0 then (w1.entryBack z).judgeFrost else w1
        | .closing => (w.putEntry s z RunEntry.closed).judgeRun s
        | .waiting | .done | .withdrawn | .faulted => w
      | none => w
    else w
  | none => w

/-- VCU reports a valve node restart (R143). -/
def valveRestarted (w : Works) (z : ZoneIx) : Works :=
  (allSlots.foldl (fun w s => w.restartEntry z s) w).offerAdmission

/-! ### FRW's requests (R103) -/

/-- A frost entry joins the live frost run last, in place of an ended one of its zone, or begins a
new frost run (R134). -/
def joinFrost (w : Works) (e : RunEntry) : Works :=
  match w.frostRun? with
  | some _ =>
    ((w.modRun 0 fun r =>
        { r with entries := (r.entries.filter fun x => x.zone != e.zone) ++ [e] }).syncRunSlot
      e.zone).judgeFrost
  | none =>
    let state := match e.state with
      | .opened => RunState.flowing
      | .opening => RunState.opening
      | _ => RunState.queued
    w.createRun 0 .frost .auto state none [e]

/-- The transfer of a zone from its irrigation run (R135). -/
def transfer (w : Works) (z : ZoneIx) (s : SlotIx) (e : RunEntry) : Works :=
  let f := RunEntry.waiting z none
  match e.state with
  | .opened =>
    let w1 := w.joinFrost { f with state := .opened, openSince := some w.time }
    let w2 := w1.putEntry s z fun x => (x.credit w.time (w.demandOf z)).become .withdrawn
    (w2.judgeIrrigation s).renew z
  | .opening =>
    let w1 := w.joinFrost { f with state := .opening }
    (w1.putEntry s z fun x => x.become .withdrawn).judgeIrrigation s
  | .waiting =>
    let w1 := w.joinFrost f
    ((w1.putEntry s z fun x => x.become .withdrawn).judgeIrrigation s).offerAdmission
  | .closing =>
    let w1 := w.joinFrost f
    ((w1.putEntry s z fun x =>
        if x.closeCause = some .suspend then { x with closeCause := some .withdraw } else x
      ).judgeIrrigation s).offerAdmission
  | .done | .withdrawn | .faulted => w

/-- A place request's own work (R134). -/
def placeWork (w : Works) (z : ZoneIx) : Works :=
  match w.frostEntry? z with
  | some e =>
    match e.state with
    | .closing => ((w.putEntry 0 z fun x => x.become .opening).setFollowOn z).judgeFrost
    | .waiting | .opening | .opened => w
    | .done | .withdrawn | .faulted =>
      match w.irrigationEntry? z with
      | some (s, x) => w.transfer z s x
      | none => (w.joinFrost (RunEntry.waiting z none)).offerAdmission
  | none =>
    match w.irrigationEntry? z with
    | some (s, x) => w.transfer z s x
    | none => (w.joinFrost (RunEntry.waiting z none)).offerAdmission

/-- FRW's place request (R103, R134). -/
def place (w : Works) (z : ZoneIx) : Works := w.rdpEvent fun w => w.placeWork z

/-- The answer to a place request: the zone's entry is OPEN, or waits (R103, R134). -/
def placedOpen (w : Works) (z : ZoneIx) : Bool :=
  match w.frostEntry? z with
  | some e => e.state == .opened
  | none => false

/-- A withdraw request's own work (R136). -/
def withdrawWork (w : Works) (z : ZoneIx) : Works :=
  match w.frostEntry? z with
  | some e =>
    match e.state with
    | .waiting => ((w.putEntry 0 z fun x => x.become .withdrawn).judgeFrost).offerAdmission
    | .opening | .opened => (w.sendClosing 0 .withdraw z).judgeFrost
    | .closing | .done | .withdrawn | .faulted => w
  | none => w

/-- FRW's withdraw request (R103, R136). -/
def withdraw (w : Works) (z : ZoneIx) : Works := w.rdpEvent fun w => w.withdrawWork z

/-- FRW's finish request (R103, R136). -/
def finishZone (w : Works) (z : ZoneIx) : Works :=
  w.rdpEvent fun w =>
    match w.frostEntry? z with
    | some e => if e.state = .opened then (w.sendClosing 0 .complete z).judgeFrost else w
    | none => w

/-! ### The automatic trigger's placement (R95, R127) -/

/-- The newest auto run that gathers. -/
def gatheringRun? (w : Works) : Option (SlotIx × Run) :=
  match (w.runsByAge fun r => r.state == .gathering).getLast? with
  | some s => (w.run s).map fun r => (s, r)
  | none => none

/-- The zone may join the gathering run (R95). -/
def mayJoin (w : Works) (z : ZoneIx) (r : Run) : Bool :=
  decide (r.entries.length < Config.irrigationEntries) && (r.entry? z).isNone &&
    decide (w.demandSum (r.zonesIn .waiting) + w.demandOf z ≤ w.site.capacity)

/-- A new auto run, GATHERING or at once QUEUED (R127); RUN_FULL when no slot is available (R95). -/
def newAutoRun (w : Works) (z : ZoneIx) (target : Nat) : Works :=
  match w.newSlot? with
  | none => w.latchRunFull
  | some s =>
    if 0 < w.site.gatherTime then
      w.createRun s .irrigation .auto .gathering (some (after w.time w.site.gatherTime))
        [RunEntry.waiting z (some target)]
    else
      (w.createRun s .irrigation .auto .queued none
        [RunEntry.waiting z (some target)]).offerAdmission

/-- ZTB asks RDP to place a zone in an auto run (R95). -/
def autoPlace (w : Works) (z : ZoneIx) (target : Nat) : Works :=
  w.rdpEvent fun w =>
    match w.gatheringRun? with
    | some (s, r) =>
      if w.mayJoin z r then
        (w.modRun s fun r =>
          { r with entries := r.entries ++ [RunEntry.waiting z (some target)] }).syncRunSlot z
      else w.newAutoRun z target
    | none => w.newAutoRun z target

/-! ### Activations (R145) -/

/-- An OPEN irrigation entry whose demand an activation has changed: credited at the old demand, timed
afresh at the new (R145). -/
def retimeEntry (w : Works) (oldDemand : ZoneIx → Nat) (s : SlotIx) (z : ZoneIx) : Works :=
  if oldDemand z = w.demandOf z then w
  else
    (w.putEntry s z fun e => (e.credit w.time (oldDemand z)).toOpen w.time (w.demandOf z)).renew z

/-- Every OPEN irrigation entry whose zone's demand changes (R145), by ascending slot and in join order
within a run, which is the order of the renewals' numbers (log 43). -/
def retimeRuns (w : Works) (oldDemand : ZoneIx → Nat) : Works :=
  irrigationSlots.foldl (fun w s =>
    match w.run s with
    | some r =>
      if r.live then (r.zonesIn .opened).foldl (fun w z => w.retimeEntry oldDemand s z) w else w
    | none => w) w

end Works

end Sys2Proof.Machine
end

