-- ==== Sys2Proof/Machine/Frost.lean ====
section
/-! DEFINITION. FRW: figures and blindness (R98 to R102), evaluations (R104 to R110), the protection
control (R112 to R114) and the thaw deadline (R109). -/

namespace Sys2Proof.Machine

/-- The smaller of two optional values. -/
def minOpt (a b : Option Int) : Option Int :=
  match a, b with
  | some x, some y => some (min x y)
  | some x, none => some x
  | none, y => y

/-- An entry is ACTIVE or SILENT. -/
def Entry.heard (e : Entry) : Bool := e.state == .active || e.state == .silent

/-- The smallest latest value of an entry's channels of one class (R98). -/
def Entry.smallest (e : Entry) (c : ClassCode) : Option Int :=
  e.channels.foldl (fun m ch => if ch.cls = c then minOpt m ch.latest else m) none

namespace Works

/-- A zone's own figure of a class: the smallest latest value of its ACTIVE and SILENT entries'
channels of the class (R98). -/
def ownFigure (w : Works) (z : ZoneIx) (c : ClassCode) : Option Int :=
  w.roster.toList.foldl
    (fun m e => if e.heard && e.zone == some z then minOpt m (e.smallest c) else m) none

/-- FRW recomputes a zone's own figures; those of a zone not in use are not looked at (R99, R101). -/
def formOwn (w : Works) (z : ZoneIx) : Works :=
  let use := (w.cfg z).inUse
  w.modZone z fun x =>
    { x with ownDry := if use then w.ownFigure z classAirDry else none,
             ownWet := if use then w.ownFigure z classAirWet else none }

/-- A figure from the zone's own, or from its reference zone's own, one level (R99). -/
def pickFigure (w : Works) (z : ZoneIx) (own : Zone → Option Int) : Option Figure :=
  if (w.cfg z).inUse then
    match own (w.zone z), (w.cfg z).reference with
    | some v, _ => some { value := v, source := .own }
    | none, some r => (own (w.zone r)).map fun v => { value := v, source := .reference }
    | none, none => none
  else none

/-- The notice of a blind flag that changes for an in-use zone in RUNNING (R100).  The wet figure of a
FROST_SIGHTED is always present and goes as its value alone, without a presence byte (log 10). -/
def blindNotice (w : Works) (z : ZoneIx) (wasBlind : Bool) : Works :=
  if w.running && (w.cfg z).inUse then
    match (w.zone z).wet, wasBlind with
    | none, false =>
      w.notice .frostBlind (byte z.val)
        ([byte z.val] ++ optFigure (w.zone z).dry ++ [(w.zone z).frost.code])
    | some f, true =>
      w.notice .frostSighted (byte z.val)
        ([byte z.val] ++ signed16 f.value ++ [f.source.code, (w.zone z).frost.code])
    | _, _ => w
  else w

/-- A zone's figures and blind flag are formed (R99, R100). -/
def formFigures (w : Works) (z : ZoneIx) : Works :=
  let dry := w.pickFigure z Zone.ownDry
  let wet := w.pickFigure z Zone.ownWet
  (w.modZone z fun x => { x with dry := dry, wet := wet, blind := wet.isNone }).blindNotice z
    (w.zone z).blind

/-- The zone can be protected (R106). -/
def canProtect (w : Works) (z : ZoneIx) : Bool :=
  (w.zone z).protect && (w.cfg z).valveNode.isSome && (w.zone z).valve != .stuck

/-- The zone is placed in the frost run, and its state follows from the answer (R106). -/
def placeZone (w : Works) (z : ZoneIx) (cause : FrostCause) : Works :=
  let w1 := w.place z
  w1.setFrost z (if w1.placedOpen z then .protecting else .warning) none cause

/-- Frost is confirmed: the counter is 0, and the zone is placed or declared UNPROTECTED (R105,
R106). -/
def frostConfirmed (w : Works) (z : ZoneIx) (cause : FrostCause) : Works :=
  let w1 := w.modZone z fun x => { x with confirm := 0 }
  if w1.canProtect z then w1.placeZone z cause else w1.setFrost z .unprotected none cause

/-- An evaluation in CLEAR or WATCH (R105). -/
def evaluateQuiet (w : Works) (z : ZoneIx) (wet : Int) (counting : Bool) (cause : FrostCause) :
    Works :=
  let x := w.zone z
  let c := w.cfg z
  if wet < c.warnWet then
    if counting then
      if c.confirmCount ≤ x.confirm + 1 then w.frostConfirmed z cause
      else w.modZone z fun y => { y with confirm := x.confirm + 1 }
    else w
  else
    let w1 := w.modZone z fun y => { y with confirm := 0 }
    match x.dry with
    | none => w1
    | some d =>
      if x.frost = .clear ∧ d.value < c.watchDry then w1.setFrost z .watch none cause
      else if x.frost = .watch ∧ c.watchDry + Config.clearMargin ≤ d.value then
        w1.setFrost z .clear none cause
      else w1

/-- An evaluation of a zone whose wet figure is present (R104 to R110). -/
def evaluate (w : Works) (z : ZoneIx) (wet : Int) (counting : Bool) (cause : FrostCause) : Works :=
  let above : Bool := decide ((w.cfg z).releaseWet ≤ wet)
  match (w.zone z).frost with
  | .clear | .watch => w.evaluateQuiet z wet counting cause
  | .warning => if above then (w.withdraw z).settleZone z cause else w
  | .protecting =>
    if above then
      w.setFrost z .thawing (some (after w.time (w.cfg z).releaseHold)) cause
    else w
  | .thawing => if above then w else w.setFrost z .protecting none cause
  | .unprotected => if above then w.settleZone z cause else w

/-- A zone is recomputed from the own figures as they stand, and evaluated.  counting says which
source of the wet figure the reading behind it came from, if it counts (R101, R104).  That THAWING to
PROTECTING without an evaluation carries the cause of the recomputing event is the model's reading (R115
names causes of evaluations alone; log 45). -/
def recompute (w : Works) (z : ZoneIx) (counting : Option FigSource) (cause : FrostCause) : Works :=
  let w1 := w.formFigures z
  match (w1.zone z).wet with
  | some f => w1.evaluate z f.value (counting == some f.source) cause
  | none =>
    if (w1.zone z).frost = .thawing then w1.setFrost z .protecting none cause else w1

/-- One event naming zone z: z first, then every in-use zone that takes it as reference (R101).
sensor says that a good AIR_WET reading of an own frost sensor of z is behind it (R104).  The zones of the
second step keep their own figures as stored, which is the model's reading (R101 speaks of own figures in the
first step alone; log 50). -/
def frostEvent (w : Works) (z : ZoneIx) (sensor : Bool) (cause : FrostCause) : Works :=
  let w1 := (w.formOwn z).recompute z (if sensor then some .own else none) cause
  allZones.foldl (fun w x =>
    if (w.cfg x).inUse && (w.cfg x).reference == some z then
      w.recompute x (if sensor then some .reference else none) cause
    else w) w1

/-- Step 1 of R102: a zone that leaves use. -/
def frostLeavesUse (w : Works) (z : ZoneIx) : Works :=
  (w.modZone z fun x =>
      { x with confirm := 0, ownDry := none, ownWet := none, dry := none, wet := none,
               blind := true }).setFrost z .clear none .activation

/-- FRW's work at an activation (R102); wasInUse is the configuration before it.  The zones that leave use
are taken in ascending index too, where R102 gives an order for step 3 alone (the model's choice, log 8). -/
def frostActivation (w : Works) (wasInUse : ZoneIx → Bool) : Works :=
  let w1 := allZones.foldl (fun w z =>
    if wasInUse z && !(w.cfg z).inUse then w.frostLeavesUse z else w) w
  let w2 := allZones.foldl formOwn w1
  allZones.foldl (fun w z =>
    if (w.cfg z).inUse then w.recompute z none .activation else w) w2

/-- The protection control is turned off.  request carries out the withdrawal (R112, R114). -/
def protectionOff (w : Works) (z : ZoneIx) (request : Works → Works) : Works :=
  match (w.zone z).frost with
  | .warning | .protecting | .thawing =>
    let w1 := request w
    if w1.wetBelowRelease z then w1.setFrost z .unprotected none .control
    else w1.settleZone z .control
  | .clear | .watch | .unprotected => w

/-- An UNPROTECTED zone is placed when protection has become possible (R113). -/
def protectionPossible (w : Works) (z : ZoneIx) (cause : FrostCause) : Works :=
  if (w.zone z).frost = .unprotected ∧ w.canProtect z ∧ w.wetBelowRelease z then
    w.placeZone z cause
  else w

/-- The thaw deadline is reached: finished and settled (R109). -/
def thawExpired (w : Works) (z : ZoneIx) : Works :=
  ((w.finishZone z).modZone z fun x => { x with thaw := none }).settleZone z .thaw

end Works

end Sys2Proof.Machine
end

