-- ==== Sys2Proof/Machine/Acks.lean ====
section
/-! DEFINITION. VCU's reception: acknowledgements (R153 to R155, R157), unanswered attempts (R152),
position readings and clearing (R159, R160), restarts (R161), the START broadcast (R162) and flow
readings (R164). -/

namespace Sys2Proof.Machine

/-- Causes of a VALVE_FAULT notice, with what each adds: a result, a command number (R155, R159). -/
inductive ValveFaultCause where
  | closeFailed (result : FaultReason) (number : Byte)
  | unexpectedOpen
  | renew (result : FaultReason)
  deriving DecidableEq, Repr

/-- 11.1. -/
def ValveFaultCause.code : ValveFaultCause → Byte
  | .closeFailed _ _ => 0
  | .unexpectedOpen => 1
  | .renew _ => 2

/-- Causes of a VALVE_CLEARED notice (11.1). -/
inductive ValveClearCause where
  | reading
  | request
  | restart
  deriving DecidableEq, Repr

def ValveClearCause.code : ValveClearCause → Byte
  | .reading => 0
  | .request => 1
  | .restart => 2

namespace Works

/-- The items of a rule that names the zone and its valve node. -/
def valveItems (w : Works) (z : ZoneIx) : Bytes := byte z.val :: idOrNone (w.cfg z).valveNode

/-- The detail of a VALVE_FAULT notice: the items R155 and R159 name for the cause, in their order (11.3).
For a renewal R155 names the cause and the result alone.  The result has the code of a fault reason, LOCAL 0,
FAULT 1, NO_ACK 2, and not the VALVE_ACK code of 11.2, which has none for NO_ACK (the model's choice,
log 11). -/
def faultDetail (w : Works) (z : ZoneIx) (cause : ValveFaultCause) : Bytes :=
  match cause with
  | .closeFailed r number => w.valveItems z ++ [cause.code, r.code, number]
  | .unexpectedOpen => w.valveItems z ++ [cause.code]
  | .renew r => [cause.code, r.code]

def valveFault (w : Works) (z : ZoneIx) (cause : ValveFaultCause) : Works :=
  w.notice .valveFault (byte z.val) (w.faultDetail z cause)

/-- The detail of a VALVE_CLEARED notice: R159 names the zone, the valve node id and the cause, R160 and R161
the cause alone (11.3). -/
def clearDetail (w : Works) (z : ZoneIx) (cause : ValveClearCause) : Bytes :=
  match cause with
  | .reading => w.valveItems z ++ [cause.code]
  | .request | .restart => [cause.code]

def valveCleared (w : Works) (z : ZoneIx) (cause : ValveClearCause) : Works :=
  w.notice .valveCleared (byte z.val) (w.clearDetail z cause)

/-! ### Outcomes of a command -/

/-- A failed OPEN is reported, then a CLOSE is created and the valve goes from OPENING to CLOSING
(R155). -/
def openCmdFailed (w : Works) (z : ZoneIx) (r : FaultReason) : Works :=
  let w1 := (w.setCmd z none).rdpEvent fun w => w.openFailed z r
  if (w1.zone z).valve = .opening then w1.closeNow z else w1

/-- A failed renewal leaves the valve OPEN (R155). -/
def renewalFailed (w : Works) (z : ZoneIx) (r : FaultReason) : Works :=
  (w.setCmd z none).valveFault z (.renew r)

/-- A failed CLOSE leaves the valve STUCK (R155). -/
def closeCmdFailed (w : Works) (z : ZoneIx) (number : Byte) (r : FaultReason) : Works :=
  (((w.setCmd z none).setValve z .stuck).rdpEvent fun w => w.valveStuck z).valveFault z
    (.closeFailed r number)

/-- The zone's outstanding command has failed (R155). -/
def cmdFailed (w : Works) (z : ZoneIx) (c : Cmd) (r : FaultReason) : Works :=
  match c.kind, c.renewal with
  | .openValve, false => w.openCmdFailed z r
  | .openValve, true => w.renewalFailed z r
  | .closeValve, _ => w.closeCmdFailed z c.number r

/-- A carried OPEN of a zone that is by now in the frost run is followed by a renewal with limit 0
(R154, R158). -/
def renewIfCarried (w : Works) (z : ZoneIx) (c : Cmd) : Works :=
  if c.limited && w.placedOpen z then w.renew z else w

/-- A matching DONE to an OPEN that is no renewal (R154). -/
def openAcknowledged (w : Works) (z : ZoneIx) (c : Cmd) : Works :=
  ((((w.setCmd z none).setValve z .opened).rdpEvent fun w => w.openDone z).openReported).renewIfCarried
    z c

/-- A matching DONE to a CLOSE without follow-on (R154). -/
def closeAcknowledged (w : Works) (z : ZoneIx) : Works :=
  ((w.setCmd z none).setValve z .closed).rdpEvent fun w => w.closeReport z

/-- The zone's frost entry is OPENING. -/
def frostOpening (w : Works) (z : ZoneIx) : Bool :=
  match w.frostEntry? z with
  | some e => e.state == .opening
  | none => false

/-- The zone's valve node is ACTIVE or SILENT. -/
def valveNodeReady (w : Works) (z : ZoneIx) : Bool :=
  match (w.cfg z).valveNode with
  | some id => w.nodeReady id
  | none => false

/-- A follow-on that no longer holds: the entry goes back to WAITING and admission is offered
(R157). -/
def followOnLost (w : Works) (z : ZoneIx) : Works :=
  if w.frostOpening z then
    ((w.putEntry 0 z fun e => e.become .waiting).judgeFrost).offerAdmission
  else w.offerAdmission

/-- A matching DONE to a CLOSE with follow-on (R157). -/
def followOnAcknowledged (w : Works) (z : ZoneIx) : Works :=
  let closed := (w.setCmd z none).setValve z .closed
  if w.frostOpening z && w.valveNodeReady z && closed.fits z then
    (w.setCmd z none).openRequest z
  else closed.rdpEvent fun w => w.followOnLost z

/-- A matching DONE ends the command (R154). -/
def cmdDone (w : Works) (z : ZoneIx) (c : Cmd) : Works :=
  match c.kind, c.renewal, c.followOn with
  | .openValve, true, _ => w.setCmd z none
  | .openValve, false, _ => w.openAcknowledged z c
  | .closeValve, _, true => w.followOnAcknowledged z
  | .closeValve, _, false => w.closeAcknowledged z

/-- VCU judges a VALVE_ACK from a node: the zone, the number, the result (R153, R190). -/
def takeAck (w : Works) (src : NodeId) (payload : Bytes) : Works :=
  match w.valveZone? src, payload with
  | some z, [number, result] =>
    match (w.zone z).cmd, ackResult? result with
    | some c, some r =>
      if c.number = number then
        match r with
        | .done => w.cmdDone z c
        | .localFault => w.cmdFailed z c .localFault
        | .fault => w.cmdFailed z c .fault
      else w
    | _, _ => w
  | _, _ => w

/-- The ack deadline of the zone's command is reached: another attempt, or NO_ACK (R152). -/
def ackDeadline (w : Works) (z : ZoneIx) : Works :=
  match (w.zone z).cmd with
  | some c =>
    match c.deadline with
    | some d =>
      if w.reached d then
        if c.attempts < w.site.attempts then w.attempt z else w.cmdFailed z c .noAck
      else w
    | none => w
  | none => w

/-! ### Position readings, clearing, restart -/

/-- A STUCK valve is taken as CLOSED: held demand is released and admission offered (R140, R159,
R160). -/
def clearStuck (w : Works) (z : ZoneIx) : Works :=
  (w.setValve z .closed).rdpEvent offerAdmission

/-- A position reading of a zone's valve node (R159). -/
def positionReading (w : Works) (z : ZoneIx) (value : Int) : Works :=
  if value = 0 ∧ (w.zone z).valve = .stuck then
    ((w.clearStuck z).valveCleared z .reading).protectionPossible z .valve
  else if value = 1 ∧ (w.zone z).valve = .closed ∧ (w.zone z).cmd = none then
    ((w.setValve z .stuck).rdpEvent fun w => w.valveStuck z).valveFault z .unexpectedOpen
  else w

/-- CLEAR_VALVE carried out for a STUCK valve (R160). -/
def clearValve (w : Works) (z : ZoneIx) : Works :=
  ((w.clearStuck z).protectionPossible z .valve).valveCleared z .request

/-- ENU reports that the zone's valve node has restarted (R161). -/
def valveRestart (w : Works) (z : ZoneIx) : Works :=
  let w1 := ((w.setCmd z none).setValve z .closed).rdpEvent fun w => w.valveRestarted z
  if (w.zone z).valve = .stuck then w1.valveCleared z .restart else w1

/-! ### START and flow -/

/-- The broadcast CLOSE of START (R162). -/
def startBroadcast (w : Works) : Works :=
  { w.submitUrgent kindValveCmd Config.broadcast
      ([CmdKind.code .closeValve, w.cmdNumber] ++ be16 0) with
    cmdNumber := w.cmdNumber + 1 }

/-- Every pending flow-confirm deadline is dropped (R164). -/
def dropFlowDeadlines (w : Works) : Works :=
  { w with runs := mapRows (fun r => r.map fun x => { x with flowDeadline := none }) w.runs }

/-- A reading above the leak limit while the line is IDLE (R164). -/
def leakCheck (w : Works) (value : Int) : Works :=
  if 0 < w.site.leakLimit ∧ w.line.state = .idle ∧ (w.site.leakLimit : Int) < value then
    w.latchLeak.notice .leak 0 (signed16 value ++ be16 w.site.leakLimit ++ be32 w.time)
  else w

/-- A good reading of the flow meter (R164). -/
def flowReading (w : Works) (value : Int) : Works :=
  let w1 := if ((w.admittedDemand / 2 : Nat) : Int) ≤ value then w.dropFlowDeadlines else w
  w1.leakCheck value

end Works

end Sys2Proof.Machine
end

