-- ==== Sys2Proof/Machine/Cancel.lean ====
section
/-! DEFINITION. RDP's own deadlines and requests: gather and completion deadlines (R127, R129), flow
fault (R144), RUN.CANCEL (R137, R138) and RUN.OPEN's creation (R128). -/

namespace Sys2Proof.Machine

namespace Works

/-- The gather deadline of a gathering run is reached (R127). -/
def gatherExpired (w : Works) (s : SlotIx) (r : Run) : Works :=
  w.rdpEvent fun w =>
    if r.has .waiting then (w.setRunState s .queued none).offerAdmission
    else w.setRunState s r.ending none

def gatherDeadline (w : Works) (s : SlotIx) : Works :=
  match w.run s with
  | some r =>
    match r.state, r.gatherDeadline with
    | .gathering, some d => if w.reached d then w.gatherExpired s r else w
    | _, _ => w
  | none => w

/-- An entry has delivered its target (R129). -/
def entryComplete (w : Works) (s : SlotIx) (z : ZoneIx) : Works :=
  w.rdpEvent fun w =>
    ((w.putEntry s z fun e => { e with delivered := e.target.getD 0 }).sendClosing s .complete z).judgeRun
      s

/-- The completion deadline of the zone's entry is reached (R129). -/
def completionDeadline (w : Works) (s : SlotIx) (z : ZoneIx) : Works :=
  match w.run s with
  | some r =>
    match r.entry? z with
    | some e =>
      match e.state, e.completion with
      | .opened, some d => if w.reached d then w.entryComplete s z else w
      | _, _ => w
    | none => w
  | none => w

/-- Every entry of the run in a state, changed. -/
def eachEntry (w : Works) (s : SlotIx) (state : EntryState) (f : Works → ZoneIx → Works) : Works :=
  match w.run s with
  | some r => (r.zonesIn state).foldl f w
  | none => w

/-- Every WAITING entry of the run becomes WITHDRAWN (R137, R144). -/
def withdrawWaiting (w : Works) (s : SlotIx) : Works :=
  w.eachEntry s .waiting fun w z => w.putEntry s z fun e => e.become .withdrawn

/-- OPEN and OPENING entries go to CLOSING with the cause, in join order (R137, R144; log 43). -/
def closeAll (w : Works) (s : SlotIx) (c : EntryCause) : Works :=
  match w.run s with
  | some r =>
    (r.entries.filter fun e => e.state == .opened || e.state == .opening).foldl
      (fun w e => w.sendClosing s c e.zone) w
  | none => w

/-- An irrigation run whose flow was never confirmed (R144).  Its entries change before it does, so the
RUN_STATE notice's demand total leaves out those just withdrawn; R144 names the run's change first and fixes
no order (the model's choice, log 32). -/
def faultRun (w : Works) (s : SlotIx) : Works :=
  let w1 := (w.closeAll s (.fault .flow)).withdrawWaiting s
  (w1.setRunState s .closing (some .fault)).judgeIrrigation s

/-- The FLOW_FAULT notice: slot, run number, kind, admitted demand (R144). -/
def flowFaultNotice (w : Works) (s : SlotIx) (r : Run) : Works :=
  w.latchFlowFault.notice .flowFault (byte s.val)
    ([byte s.val] ++ be16 r.number.toNat ++ [r.kind.code] ++ be16 w.admittedDemand)

/-- The run's flow-confirm deadline expires (R144). -/
def flowExpired (w : Works) (s : SlotIx) (r : Run) : Works :=
  let w1 := (w.flowFaultNotice s r).modRun s fun x => { x with flowDeadline := none }
  w1.rdpEvent fun w => if s = 0 then w else w.faultRun s

def flowConfirmDeadline (w : Works) (s : SlotIx) : Works :=
  match w.run s with
  | some r =>
    match r.flowDeadline with
    | some d => if w.reached d then w.flowExpired s r else w
    | none => w
  | none => w

/-! ### RUN.CANCEL -/

/-- A CLOSING entry with cause SUSPEND takes WITHDRAW (R137). -/
def withdrawSuspended (w : Works) (s : SlotIx) : Works :=
  w.eachEntry s .closing fun w z => w.putEntry s z fun e =>
    if e.closeCause = some .suspend then { e with closeCause := some .withdraw } else e

/-- The cancel of a run whose valves may be moving (R137). -/
def cancelMoving (w : Works) (s : SlotIx) : Works :=
  let w1 := (((w.withdrawSuspended s).closeAll s .withdraw).withdrawWaiting s)
  (w1.setRunState s .closing (some .cancel)).judgeIrrigation s

/-- The cancel of a live irrigation run, by its state (R137). -/
def cancelIrrigation (w : Works) (s : SlotIx) (r : Run) : Works :=
  w.rdpEvent fun w =>
    match r.state with
    | .gathering | .queued | .suspended => (w.withdrawWaiting s).setRunState s .cancelled none
    | .opening | .flowing | .suspending => w.cancelMoving s
    | .closing =>
      w.modRun s fun x =>
        if x.closeCause = some .fault then x else { x with closeCause := some .cancel }
    | .done | .cancelled | .faulted => w

/-- The zones whose frost entries are WAITING, OPENING or OPEN, ascending (R138). -/
def frostMembers (w : Works) : List ZoneIx :=
  allZones.filter fun z =>
    match w.frostEntry? z with
    | some e => e.state == .waiting || e.state == .opening || e.state == .opened
    | none => false

/-- The zone's frost protection control is written (R84, R87). -/
def setProtect (w : Works) (z : ZoneIx) (on : Bool) : Works :=
  if (w.zone z).protect = on then w
  else (w.modZone z fun x => { x with protect := on }).touch z

/-- One member of a cancelled frost run (R114, R138; log 23). -/
def cancelMember (w : Works) (z : ZoneIx) : Works :=
  (w.setProtect z false).protectionOff z fun w => (w.withdrawWork z).runOffer

/-- RUN.CANCEL of the live frost run (R138).  A member's dropped unsent OPEN closes its entry once the cancel
is complete (R156), so after the FROST_STATE notices of all members; R115, R147 and R156 leave open which
comes first (the model's choice, log 23). -/
def cancelFrost (w : Works) : Works :=
  w.rdpEvent fun w => (w.frostMembers.foldl cancelMember w).judgeFrost

/-! ### RUN.OPEN -/

/-- A requested run is created QUEUED and admission offered (R128). -/
def openRun (w : Works) (s : SlotIx) (items : List (ZoneIx × Nat)) : Works :=
  w.rdpEvent fun w =>
    (w.createRun s .irrigation .request .queued none
      (items.map fun i => RunEntry.waiting i.1 (some i.2))).offerAdmission

end Works

end Sys2Proof.Machine
end

