-- ==== Sys2Proof/Machine/Rows.lean ====
section
/-! DEFINITION. The rows of the loadable tables as STAGE.WRITE gives them and the reads return them
(11.4), with the range of each field (R42, R43, R44, R82, 09.4, 08). -/

namespace Sys2Proof.Machine

/-- The tables STAGE.WRITE knows (R178, 11.4). -/
inductive TableName where
  | role
  | cls
  | window
  | zone
  | site
  deriving DecidableEq, Repr

def tableName? (b : Byte) : Option TableName :=
  if b = 0x01 then some .role
  else if b = 0x02 then some .cls
  else if b = 0x03 then some .window
  else if b = 0x04 then some .zone
  else if b = 0x05 then some .site
  else none

/-- The WATCH table's code (R180). -/
def watchTable : Byte := 0x06

def TableName.code : TableName → Byte
  | .role => 0x01
  | .cls => 0x02
  | .window => 0x03
  | .zone => 0x04
  | .site => 0x05

/-- Bytes of a row (11.4). -/
def TableName.rowBytes : TableName → Nat
  | .role => 6
  | .cls => 6
  | .window => 9
  | .zone => 26
  | .site => 42

/-- Rows of a table (R178). -/
def TableName.rows : TableName → Nat
  | .role => 4
  | .cls => 6
  | .window => 4
  | .zone => 40
  | .site => 1

/-! ### Ranges -/

def within (lo hi n : Nat) : Bool := decide (lo ≤ n) && decide (n ≤ hi)

/-- yes/no and on/off are 00h and 01h (11.1; log 31). -/
def yesNo (b : Byte) : Bool := within 0 1 b.toNat

/-- A temperature threshold, −400 to 600 (R82). -/
def threshold (v : Int) : Bool := decide (-400 ≤ v) && decide (v ≤ 600)

/-- A node id 000001h to FFFFFEh. -/
def properId (i : NodeId) : Bool := i != 0 && i != Config.broadcast

/-- A node id that may be absent. -/
def properOrAbsent (i : NodeId) : Bool := i != Config.broadcast

/-- A zone index that may be absent. -/
def zoneOrAbsent (b : Byte) : Bool := decide (b.toNat < 40) || b == 0xFF

/-- Policy codes in the order of the site record's row (11.1). -/
def policyOf (b : Byte) : Policy :=
  if b = 0 then .anyone else if b = 1 then .listed else .closed

/-- The position of the first field out of range (R191). -/
def firstFault : List Bool → Option Nat
  | [] => none
  | true :: rest => (firstFault rest).map (· + 1)
  | false :: _ => some 0

/-! ### Reading a row's bytes: the row, and for each field whether it is in range -/

def roleRow? (bs : Bytes) : Option (RoleRow × List Bool) :=
  match bs with
  | [a1, a0, b1, b0, c, d] =>
    some ({ minInterval := nat16 a1 a0, maxInterval := nat16 b1 b0, chatter := c.toNat,
            allowed := d == 1 },
      [within 10 7200 (nat16 a1 a0), within 10 7200 (nat16 b1 b0), true, yesNo d])
  | _ => none

def classRow? (bs : Bytes) : Option (ClassRow × List Bool) :=
  match bs with
  | [a1, a0, b1, b0, c, d] =>
    some ({ lower := int16 a1 a0, upper := int16 b1 b0, quarantine := c.toNat, copy := d == 1 },
      [true, true, within 0 15 c.toNat, yesNo d])
  | _ => none

def winRow? (bs : Bytes) : Option (WinRow × List Bool) :=
  match bs with
  | [e, l2, l1, l0, h2, h1, h0, z, k] =>
    some ({ enabled := e == 1, low := nodeId l2 l1 l0, high := nodeId h2 h1 h0,
            zone := (zoneIx? z.toNat).getD 0, cls := (classCode? k.toNat).getD 0 },
      [yesNo e, properId (nodeId l2 l1 l0), properId (nodeId h2 h1 h0), within 0 39 z.toNat,
        within 0 5 k.toNat])
  | _ => none

def zoneRow? (bs : Bytes) : Option (ZoneCfg × List Bool) :=
  match bs with
  | [u, v2, v1, v0, r, d1, d0, p1, p0, f1, f0, l1, l0, m1, m0, w, t, a1, a0, b1, b0, c1, c0, n, h1,
      h0] =>
    some ({ inUse := u == 1, valveNode := optId (nodeId v2 v1 v0), reference := zoneIx? r.toNat,
            demand := nat16 d1 d0, refill := nat16 p1 p0, full := nat16 f1 f0,
            litresPerPoint := nat16 l1 l0, maxVolume := nat16 m1 m0, weight := w.toNat,
            staleLimit := t.toNat, watchDry := int16 a1 a0, warnWet := int16 b1 b0,
            releaseWet := int16 c1 c0, confirmCount := n.toNat, releaseHold := nat16 h1 h0 },
      [yesNo u, properOrAbsent (nodeId v2 v1 v0), zoneOrAbsent r, within 1 2000 (nat16 d1 d0),
        within 0 1000 (nat16 p1 p0), within 0 1000 (nat16 f1 f0), within 1 500 (nat16 l1 l0),
        within 1 65535 (nat16 m1 m0), within 1 16 w.toNat, within 1 32 t.toNat,
        threshold (int16 a1 a0), threshold (int16 b1 b0), threshold (int16 c1 c0),
        within 1 4 n.toNat, within 300 3600 (nat16 h1 h0)])
  | _ => none

/-- The four lengths of one output (08, site parameters). -/
def pulseLengths? (bs : Bytes) : Option (PulseLengths × List Bool) :=
  match bs with
  | [l, d1, d0, t, g1, g0] =>
    some ({ lead := l.toNat, drive := nat16 d1 d0, tail := t.toNat, gap := nat16 g1 g0 },
      [true, within 10 2550 (nat16 d1 d0), true, within 0 2550 (nat16 g1 g0)])
  | _ => none

/-- The site record's fields before the pulse lengths (09.4). -/
def siteHead? (bs : Bytes) : Option (Site × List Bool) :=
  match bs with
  | [i2, i1, i0, p, s, m2, m1, m0, c1, c0, w1, w0, g1, g0, a1, a0, k, n, f1, f0, l1, l0, d1, d0] =>
    some ({ controller := nodeId i2 i1 i0, policy := policyOf p, forwardStrays := s == 1,
            meter := optId (nodeId m2 m1 m0), capacity := nat16 c1 c0, windowPeriod := nat16 w1 w0,
            gatherTime := nat16 g1 g0, alertInterval := nat16 a1 a0, ackWait := k.toNat,
            attempts := n.toNat, flowLimit := nat16 f1 f0, leakLimit := nat16 l1 l0,
            drainTime := nat16 d1 d0, pump := .default, master := .default, drain := .default },
      [properId (nodeId i2 i1 i0), within 0 2 p.toNat, yesNo s, properOrAbsent (nodeId m2 m1 m0),
        within 1 20000 (nat16 c1 c0), within 60 3600 (nat16 w1 w0), within 0 900 (nat16 g1 g0),
        within 30 600 (nat16 a1 a0), within 2 30 k.toNat, within 1 8 n.toNat,
        within 10 600 (nat16 f1 f0), within 0 500 (nat16 l1 l0), within 0 1800 (nat16 d1 d0)])
  | _ => none

def siteRow? (bs : Bytes) : Option (Site × List Bool) :=
  match siteHead? (bs.take 24), pulseLengths? ((bs.drop 24).take 6), pulseLengths? ((bs.drop 30).take 6),
      pulseLengths? (bs.drop 36) with
  | some (s, cs), some (p, ps), some (m, ms), some (d, ds) =>
    some ({ s with pump := p, master := m, drain := d }, cs ++ ps ++ ms ++ ds)
  | _, _, _, _ => none

/-! ### The items of a row, in field order -/

def RoleRow.items (r : RoleRow) : List Bytes :=
  [be16 r.minInterval, be16 r.maxInterval, [byte r.chatter], [flagByte r.allowed]]

def ClassRow.items (r : ClassRow) : List Bytes :=
  [signed16 r.lower, signed16 r.upper, [byte r.quarantine], [flagByte r.copy]]

def WinRow.items (r : WinRow) : List Bytes :=
  [[flagByte r.enabled], beId r.low, beId r.high, [byte r.zone.val], [byte r.cls.val]]

def ZoneCfg.items (c : ZoneCfg) : List Bytes :=
  [[flagByte c.inUse], idOrNone c.valveNode, [zoneOrNone c.reference], be16 c.demand, be16 c.refill,
    be16 c.full, be16 c.litresPerPoint, be16 c.maxVolume, [byte c.weight], [byte c.staleLimit],
    signed16 c.watchDry, signed16 c.warnWet, signed16 c.releaseWet, [byte c.confirmCount],
    be16 c.releaseHold]

def PulseLengths.items (p : PulseLengths) : List Bytes :=
  [[byte p.lead], be16 p.drive, [byte p.tail], be16 p.gap]

def Site.items (x : Site) : List Bytes :=
  [beId x.controller, [x.policy.code], [flagByte x.forwardStrays], idOrNone x.meter, be16 x.capacity,
    be16 x.windowPeriod, be16 x.gatherTime, be16 x.alertInterval, [byte x.ackWait], [byte x.attempts],
    be16 x.flowLimit, be16 x.leakLimit, be16 x.drainTime]
    ++ x.pump.items ++ x.master.items ++ x.drain.items

/-- The items of a row of a table, or none outside the table's rows (R179, R180). -/
def Tables.rowItems (t : Tables) (name : TableName) (row : Nat) : Option (List Bytes) :=
  match name with
  | .role => (fin4? row).map fun i => t.roles[i].items
  | .cls => (classCode? row).map fun i => t.classes[i].items
  | .window => (fin4? row).map fun i => t.windows[i].items
  | .zone => (zoneIx? row).map fun z => t.zones[z].items
  | .site => if row = 0 then some t.site.items else none

/-- A row written into the bank, with the range of each of its fields; none when the row's bytes do not
spell a row (R179). -/
def Tables.putRow (t : Tables) (name : TableName) (row : Nat) (bs : Bytes) :
    Option (Tables × List Bool) :=
  match name with
  | .role =>
    match fin4? row, roleRow? bs with
    | some i, some (r, cs) => some ({ t with roles := t.roles.set i.val r i.isLt }, cs)
    | _, _ => none
  | .cls =>
    match classCode? row, classRow? bs with
    | some i, some (r, cs) => some ({ t with classes := t.classes.set i.val r i.isLt }, cs)
    | _, _ => none
  | .window =>
    match fin4? row, winRow? bs with
    | some i, some (r, cs) => some ({ t with windows := t.windows.set i.val r i.isLt }, cs)
    | _, _ => none
  | .zone =>
    match zoneIx? row, zoneRow? bs with
    | some i, some (r, cs) => some ({ t with zones := t.zones.set i.val r i.isLt }, cs)
    | _, _ => none
  | .site =>
    match siteRow? bs with
    | some (r, cs) => if row = 0 then some ({ t with site := r }, cs) else none
    | none => none

end Sys2Proof.Machine
end

