-- ==== Sys2Proof/Machine/Pins.lean ====
section
/-! DEFINITION. The output pins as the counts and the pulse in progress drive them (R22, R165), and
what ends every step. -/

namespace Sys2Proof.Machine

/-- The ready line (R22). -/
def State.ready (s : State) : Bool :=
  decide (Config.readyMargin ≤ s.works.freeSlots) && decide (s.requests.length < Config.requestCapacity)

/-- A coil pin is HIGH during the drive phase of a pulse on its coil and LOW otherwise (R165; 00,
"Pins"). -/
def Line.coil (l : Line) (o : Output) (on : Bool) : Bool :=
  match l.pulse with
  | some p => p.phase == .drive && p.output == o && p.on == on
  | none => false

/-- The pins that a state drives. -/
def State.drivenPins (s : State) : Pins :=
  { urdy := s.ready,
    pumpOn := s.works.line.coil .pump true, pumpOff := s.works.line.coil .pump false,
    mastOpn := s.works.line.coil .master true, mastCls := s.works.line.coil .master false,
    drnOpn := s.works.line.coil .drain true, drnCls := s.works.line.coil .drain false }

/-- The end of a step: the next step is an event of its own (R87; log 6), and the pins follow. -/
def State.finish (s : State) : State :=
  let t := s.onWorks fun w => { w with touched := [] }
  { t with pins := t.drivenPins }

end Sys2Proof.Machine
end

