-- ==== Sys2Proof/Machine/Roster.lean ====
section
/-! DEFINITION. NRS: what a change of an entry hands on (R41), the gate (R33 to R36), silence and loss
(R38), window closes (R37), quarantine (R40) and the conditional writes (R29 to R32). -/

namespace Sys2Proof.Machine

/-- The entry has a zone and an AIR_DRY or AIR_WET channel record (R41). -/
def Entry.airZone (e : Entry) : Option ZoneIx :=
  if e.channels.any fun c => isAir c.cls then e.zone else none

/-- Latest values are cleared (R41). -/
def Entry.clearLatest (e : Entry) : Entry :=
  { e with channels := e.channels.map fun c => { c with latest := none } }

def Entry.silenceDeadline (e : Entry) : Nat :=
  after e.lastHeard (Config.silenceIntervals * e.interval)

def Entry.lossDeadline (e : Entry) : Nat := after e.lastHeard (Config.lossIntervals * e.interval)

/-- An ACTIVE entry at START (R39). -/
def Entry.started (time : Nat) (e : Entry) : Entry :=
  if e.state = .active then { e with lastHeard := time, frames := 0, muteCloses := 0 } else e

namespace Works

/-- NRS tells FRW of an entry with a zone and an air channel (R41). -/
def tellFrost (w : Works) (zone : Option ZoneIx) : Works :=
  match zone with
  | some z => w.frostEvent z false .node
  | none => w

/-- NRS tells RDP that a valve node has become ACTIVE or SILENT, and RDP offers admission (R41,
R124). -/
def tellDispatcher (w : Works) (id : NodeId) : Works :=
  match w.valveZone? id with
  | some _ => w.rdpEvent offerAdmission
  | none => w

/-- An entry takes a new state with f: its generation advances (R26). -/
def nodeTo (w : Works) (e : EntryIx) (s : NodeState) (f : Entry → Entry) : Works :=
  (w.modEntry e fun x => { f x with state := s }).bumpEntry e

/-- The notice items that name an entry: its index and node id (log 9). -/
def entryItems (w : Works) (e : EntryIx) : Bytes := byte e.val :: beId (w.entry e).id

/-- A SILENT entry's loss deadline is reached (R38). -/
def becomeLost (w : Works) (e : EntryIx) : Works :=
  let w1 := w.nodeTo e .lost Entry.clearLatest
  let w2 := w1.notice .nodeLost (byte e.val) (w1.entryItems e ++ be32 (w1.entry e).lastHeard)
  w2.tellFrost (w.entry e).airZone

/-- An ACTIVE entry's silence deadline is reached (R38). -/
def becomeSilent (w : Works) (e : EntryIx) : Works :=
  (w.nodeTo e .silent id).tellFrost (w.entry e).airZone

/-- The deadlines of an entry that has become ACTIVE are judged at once (R38). -/
def judgeDeadlines (w : Works) (e : EntryIx) : Works :=
  if w.running ∧ (w.entry e).state = .active ∧ w.reached (w.entry e).silenceDeadline then
    let w1 := w.becomeSilent e
    if w1.reached (w1.entry e).lossDeadline then w1.becomeLost e else w1
  else w

/-- An entry that has become ACTIVE from another state is handed to FRW and RDP, and its deadlines
are judged (R38, R41).  That FRW and RDP finish their work before it turns SILENT or LOST at once is the
model's choice (log 44). -/
def nowActive (w : Works) (e : EntryIx) : Works :=
  ((w.tellFrost (w.entry e).airZone).tellDispatcher (w.entry e).id).judgeDeadlines e

/-! ### The gate (R11, R33 to R36) -/

/-- An accepted frame's sequence is kept, and a SILENT or LOST entry returns to ACTIVE (R35). -/
def acceptFrame (w : Works) (e : EntryIx) (seq : Byte) : Works :=
  let w1 := w.modEntry e fun x => { x with lastSeq := some seq }
  match (w.entry e).state with
  | .silent => (w1.nodeTo e .active id).nowActive e
  | .lost =>
    let w2 := w1.nodeTo e .active id
    (w2.notice .nodeBack (byte e.val) (w2.entryItems e)).nowActive e
  | .free | .reserved | .enrolling | .active | .muted | .quarantined => w1

def chatterLimit (w : Works) (e : EntryIx) : Nat := w.tables.roles[(w.entry e).role.ix].chatter

/-- The entry is muted for chattering (R36). -/
def mute (w : Works) (e : EntryIx) : Works :=
  let w1 := w.nodeTo e .muted fun x => { x with muteCloses := Config.muteCloses }
  let w2 := w1.notice .nodeMuted (byte e.val) (w1.entryItems e ++ [byte (w1.chatterLimit e)])
  w2.tellFrost (w.entry e).airZone

/-- The accepted frame is counted; it passes unless it takes the count above the limit (R36). -/
def countFrame (w : Works) (e : EntryIx) : Works × Bool :=
  let w1 := w.modEntry e fun x => { x with frames := min (x.frames + 1) 255 }
  if w1.chatterLimit e ≠ 0 ∧ w1.chatterLimit e < (w1.entry e).frames then (w1.mute e, false)
  else (w1, true)

/-- The roster gate's work on one frame from an enrolled entry; the answer says whether it passes
(R33 to R36). -/
def gate (w : Works) (e : EntryIx) (seq : Byte) : Works × Bool :=
  let w1 := w.modEntry e fun x => { x with lastHeard := w.time }
  match (w.entry e).state with
  | .muted | .quarantined => (w1, false)
  | .free | .reserved | .enrolling | .active | .silent | .lost =>
    if (w.entry e).lastSeq = some seq then (w1, false)
    else (w1.acceptFrame e seq).countFrame e

/-! ### Window closes (R37) -/

/-- One enrolled entry at a window close. -/
def closeEntryWindow (w : Works) (e : EntryIx) : Works :=
  if (w.entry e).state.enrolled then
    let w1 := w.modEntry e fun x => { x with frames := 0 }
    if (w.entry e).state = .muted then
      let w2 := w1.modEntry e fun x => { x with muteCloses := x.muteCloses - 1 }
      if (w2.entry e).muteCloses = 0 then (w2.nodeTo e .active id).nowActive e else w2
    else w1
  else w

/-- NRS's work at a window close.  R37 gives no order of the entries: they are taken in ascending index,
each finished, with its deadlines and what FRW and RDP do on it, before the next (log 41). -/
def rosterClose (w : Works) : Works := allEntries.foldl closeEntryWindow w

/-! ### Judged readings (R40) -/

def goodReading (w : Works) (e : EntryIx) : Works := w.modEntry e fun x => { x with badStreak := 0 }

/-- The limit a bad reading is held to: of the channel's stored class, else of the reading's own
class code if it is 0 to 5 (R40). -/
def quarantineLimit (w : Works) (e : EntryIx) (channel cls : Nat) : Nat :=
  match (w.entry e).channels[channel]? with
  | some c => w.tables.classes[c.cls].quarantine
  | none =>
    match classCode? cls with
    | some c => w.tables.classes[c].quarantine
    | none => 0

/-- The class a quarantine is noticed with (R40). -/
def quarantineClass (w : Works) (e : EntryIx) (channel cls : Nat) : Byte :=
  match (w.entry e).channels[channel]? with
  | some c => byte c.cls.val
  | none => byte cls

/-- A bad reading: the streak, and QUARANTINED when it reaches the limit (R40). -/
def badReading (w : Works) (e : EntryIx) (channel cls : Nat) : Works :=
  let w1 := w.modEntry e fun x => { x with badStreak := min (x.badStreak + 1) 15 }
  let limit := w.quarantineLimit e channel cls
  if limit ≠ 0 ∧ limit ≤ (w1.entry e).badStreak ∧ (w.entry e).heard then
    let w2 := w1.nodeTo e .quarantined Entry.clearLatest
    let w3 := w2.notice .nodeQuarantined (byte e.val)
      (w2.entryItems e ++ [w.quarantineClass e channel cls])
    w3.tellFrost (w.entry e).airZone
  else w1

/-! ### Conditional writes -/

/-- RESERVE carried out (R29). -/
def reserveEntry (w : Works) (e : EntryIx) (node : NodeId) (role : Role) (zone : Option ZoneIx) :
    Works :=
  w.nodeTo e .reserved fun x => { Entry.free x.gen with id := node, role := role, zone := zone }

/-- ASSIGN carried out (R30): the generation advances when the zone changes (R26), and FRW is told of
the old zone and the new (R41).  Where the new zone takes the old one as reference it is recomputed twice, the
first time from its own figures as they stood (log 50). -/
def assignEntry (w : Works) (e : EntryIx) (zone : Option ZoneIx) : Works :=
  if (w.entry e).zone = zone then w
  else
    let w1 := (w.modEntry e fun x => { x with zone := zone }).bumpEntry e
    (w1.tellFrost (w.entry e).airZone).tellFrost (w1.entry e).airZone

/-- RELEASE carried out: an exchange is dropped with its context, the entry takes its free values
(R31). -/
def releaseEntry (w : Works) (e : EntryIx) : Works :=
  let w1 := match w.ctxOf e with
    | some c => w.setCtx c none
    | none => w
  (w1.nodeTo e .free fun x => Entry.free x.gen).tellFrost (w.entry e).airZone

/-- RESTORE carried out (R32).  A latest value that a frame already with SWU gave the entry while it was
QUARANTINED is kept (the model's choice, log 49). -/
def restoreEntry (w : Works) (e : EntryIx) : Works :=
  (w.nodeTo e .active fun x =>
    { x with badStreak := 0, muteCloses := 0, frames := 0, lastHeard := w.time }).nowActive e

/-- At START every ACTIVE entry is heard now and its counts are 0 (R39). -/
def rosterStart (w : Works) : Works := { w with roster := mapRows (Entry.started w.time) w.roster }

end Works

end Sys2Proof.Machine
end

