-- ==== Sys2Proof/Machine/Readings.lean ====
section
/-! DEFINITION. SWU: decoding, calibration and bounds (R64 to R68), routing (R69 to R74), the
accumulators (R70) and the sample windows (R75 to R78). -/

namespace Sys2Proof.Machine

/-- Saturation to a signed 16-bit value (R67). -/
def saturate16 (v : Int) : Int := max (-32768) (min v 32767)

/-- Calibration: scaled, divided by 1024 truncating toward zero, offset, saturated (R67). -/
def calibrate (raw : Int) (scale : Nat) (offset : Int) : Int :=
  saturate16 ((raw * scale).tdiv 1024 + offset)

/-- A value equal to either bound is inside (R68). -/
def ClassRow.inside (r : ClassRow) (v : Int) : Bool := decide (r.lower ≤ v) && decide (v ≤ r.upper)

/-- The larger of an optional value and a value. -/
def greatest (m : Option Int) (v : Int) : Int :=
  match m with
  | some x => max x v
  | none => v

/-- The smaller of an optional value and a value. -/
def least (m : Option Int) (v : Int) : Int :=
  match m with
  | some x => min x v
  | none => v

/-- One good MOISTURE reading into an accumulator (R70). -/
def Acc.add (a : Acc) (v : Int) : Acc :=
  if a.count < Config.sampleCap then
    { a with count := a.count + 1, sum := a.sum + v, min := some (least a.min v),
             max := some (greatest a.max v) }
  else { a with overflow := Nat.min (a.overflow + 1) 65535 }

def Window.add (x : Window) (z : ZoneIx) (v : Int) : Window :=
  if x.isOpen then { x with acc := upd x.acc z fun a => a.add v } else x

/-! ### Windows -/

/-- A window that opens: cleared, with its period and close deadline; when it last closed stands (R75 to
R78). -/
def Window.openAt (x : Window) (time period : Nat) : Window :=
  { isOpen := true, openedAt := some time, closeDeadline := some (after time period),
    period := some period, closedAt := x.closedAt, acc := Vector.replicate 40 Acc.cleared }

/-- A window that closes keeps its totals, opened-at and period (R77). -/
def Window.close (x : Window) (time : Nat) : Window :=
  { x with isOpen := false, closeDeadline := none, closedAt := some time }

namespace State

/-- Accumulation into the open window, for a zone in use (R70). -/
def accumulate (s : State) (zone : Option ZoneIx) (v : Int) : State :=
  match zone with
  | some z =>
    if (s.works.cfg z).inUse then { s with windows := mapRows (fun x => x.add z v) s.windows } else s
  | none => s

/-- FLOW from the flow meter goes to VCU (R72). -/
def routeFlow (s : State) (src : NodeId) (v : Int) : State :=
  if s.works.site.meter = some src then s.onWorks fun w => w.flowReading v else s

/-- VALVE from a zone's valve node goes to VCU (R73). -/
def routeValve (s : State) (src : NodeId) (v : Int) : State :=
  match s.works.valveZone? src with
  | some z => s.onWorks fun w => w.positionReading z v
  | none => s

/-- A good reading on the roster path (R69 to R74); an AIR_WET reading counts towards confirmation when
its sender is a frost sensor, so ACTIVE or SILENT (R98, R104). -/
def routeRoster (s : State) (e : EntryIx) (src : NodeId) (cls : ClassCode) (v : Int) : State :=
  let zone := (s.works.entry e).zone
  if cls = classMoisture then s.accumulate zone v
  else if isAir cls then
    match zone with
    | some z =>
      s.onWorks fun w => w.frostEvent z (cls == classAirWet && (w.entry e).heard) .reading
    | none => s
  else if cls = classFlow then s.routeFlow src v
  else if cls = classValve then s.routeValve src v
  else s

/-- A good reading on the window path (R69 to R74). -/
def routeWindow (s : State) (zone : ZoneIx) (src : NodeId) (cls : ClassCode) (v : Int) : State :=
  if cls = classMoisture then s.accumulate (some zone) v
  else if cls = classFlow then s.routeFlow src v
  else if cls = classValve then s.routeValve src v
  else s

/-- The calibrated value of a reading that matches its channel and lies inside its class's bounds
(R65, R67, R68). -/
def goodValue? (s : State) (e : EntryIx) (r : Reading) : Option (ClassCode × Int) :=
  match (s.works.entry e).channels[r.channel]? with
  | some c =>
    let v := calibrate r.raw c.scale c.offset
    if r.cls = c.cls.val ∧ s.works.tables.classes[c.cls].inside v then some (c.cls, v) else none
  | none => none

/-- The channel's latest value is set and the reading reported good (R69). -/
def keepLatest (s : State) (e : EntryIx) (channel : Nat) (v : Int) : State :=
  s.onWorks fun w =>
    (w.modEntry e fun n =>
      { n with channels := n.channels.modify channel fun c => { c with latest := some v } }).goodReading e

/-- The readings of a roster-path frame, in order; a reading that brings the entry to QUARANTINED
discards the rest (R64, R65, R68, R69). -/
def judgeRoster (e : EntryIx) (src : NodeId) : List Reading → State → State
  | [], s => s
  | r :: rs, s =>
    match s.goodValue? e r with
    | some (cls, v) => judgeRoster e src rs ((s.keepLatest e r.channel v).routeRoster e src cls v)
    | none =>
      let t := s.onWorks fun w => w.latchBounds.badReading e r.channel r.cls
      if (t.works.entry e).state = .quarantined ∧ (s.works.entry e).state ≠ .quarantined then t
      else judgeRoster e src rs t

/-- One reading of a window-path frame (R66, R68). -/
def judgeWindow (zone : ZoneIx) (cls : ClassCode) (src : NodeId) (s : State) (r : Reading) : State :=
  if r.channel = 0 ∧ r.cls = cls.val ∧ s.works.tables.classes[cls].inside r.raw then
    s.routeWindow zone src cls r.raw
  else s.onWorks Works.latchBounds

/-- The frame's sender is still the enrolled entry the lookup found (R63). -/
def stillServed (s : State) (e : EntryIx) (src : NodeId) : Bool :=
  (s.works.entry e).state.enrolled && (s.works.entry e).id == src

/-- SWU's work on one frame (R63, then R64; log 36).  A window-path frame is judged by the direct window
table in force now; a frame whose source no enabled window of it covers is dropped (R79; log 21). -/
def takeReading (s : State) (f : FieldFrame) (hit : Hit) : State :=
  match hit with
  | .roster e _ =>
    if s.stillServed e f.src then
      match readingList? f.payload with
      | some rs => judgeRoster e f.src rs s
      | none => s.onWorks Works.latchStray
    else s
  | .window _ _ _ =>
    match s.works.windowOf? f.src with
    | some i =>
      match readingList? f.payload with
      | some rs =>
        rs.foldl (judgeWindow s.works.tables.windows[i].zone s.works.tables.windows[i].cls f.src) s
      | none => s.onWorks Works.latchStray
    | none => s
  | .none => s

/-- SWU takes the head of its hand-off queue (R63). -/
def takeSwu (s : State) : State :=
  match s.swuQueue with
  | h :: rest =>
    match fieldFrame? h.frame with
    | some f => { s with swuQueue := rest }.takeReading f h.hit
    | none => { s with swuQueue := rest }
  | [] => s

end State

end Sys2Proof.Machine
end

