-- ==== Sys2Proof/Machine/ZoneTable.lean ====
section
/-! DEFINITION. ZTB: the fold (R89 to R91), the zone reports (R92, R93), the automatic trigger (R94 to
R96) and its share of an activation (R83). -/

namespace Sys2Proof.Machine

/-- The estimate after a window with samples (R90). -/
def foldEstimate (old : Option Int) (mean : Int) (weight : Nat) : Int :=
  match old with
  | none => mean
  | some e => (e * (16 - weight) + mean * weight).tdiv 16

/-- A zone after a window with samples (R90). -/
def Zone.folded (x : Zone) (mean : Int) (weight : Nat) : Zone :=
  { x with estimate := some (foldEstimate x.estimate mean weight), quality := .fresh, empty := 0 }

/-- The quality after an empty window (R91). -/
def staleQuality (estimate : Option Int) (empty staleLimit : Nat) : Quality :=
  match estimate with
  | none => .none
  | some _ => if empty < staleLimit then .stale else .none

/-- A zone after a window without samples (R91). -/
def Zone.starved (x : Zone) (staleLimit : Nat) : Zone :=
  let n := min (x.empty + 1) 32
  { x with empty := n, quality := staleQuality x.estimate n staleLimit }

/-- One zone's fold (R90, R91). -/
def Zone.fold (x : Zone) (a : Acc) (r : FoldRow) : Zone :=
  if 0 < a.count then x.folded (a.sum.tdiv a.count) r.weight else x.starved r.staleLimit

/-- A zone whose in-use field an activation changes (R83). -/
def Zone.emptied (x : Zone) : Zone := { x with estimate := none, quality := .none, empty := 0 }

/-- What a fold record holds of a zone (R89). -/
def ZoneCfg.foldRow (c : ZoneCfg) : FoldRow :=
  { inUse := c.inUse, weight := c.weight, staleLimit := c.staleLimit }

namespace Works

/-- The fold record as the active zone configuration stands (R89). -/
def foldRecord (w : Works) : Vector FoldRow 40 := mapRows ZoneCfg.foldRow w.tables.zones

/-- The fold of a closed window; a zone is touched when it is in use in the record and now (R89). -/
def foldWindow (w : Works) (acc : Vector Acc 40) (record : Vector FoldRow 40) : Works :=
  allZones.foldl (fun w z =>
    if record[z].inUse && (w.cfg z).inUse then w.modZone z fun x => x.fold acc[z] record[z] else w) w

/-! ### Reports -/

/-- One bit of a presence byte. -/
def presenceBit (b : Bool) (value : Nat) : Nat := if b then value else 0

/-- A summary, 15 bytes (R92, 11.3). -/
def summary (w : Works) (acc : Vector Acc 40) (z : ZoneIx) : Bytes :=
  let x := w.zone z
  let a := acc[z]
  [byte z.val,
   byte (presenceBit x.estimate.isSome 1 + presenceBit (decide (0 < a.count)) 2
     + presenceBit x.dry.isSome 4 + presenceBit x.wet.isSome 8)]
    ++ signed16 (x.estimate.getD 0) ++ [x.quality.code, byte a.count]
    ++ signed16 (a.min.getD 0) ++ signed16 (a.max.getD 0) ++ [x.frost.code]
    ++ signed16 ((x.dry.map Figure.value).getD 0) ++ signed16 ((x.wet.map Figure.value).getD 0)

/-- A REPORT payload (R92, 11.3). -/
def reportPayload (w : Works) (window : WinIx) (closedAt : Nat) (acc : Vector Acc 40)
    (zs : List ZoneIx) : Bytes :=
  [byte window.val] ++ be32 closedAt ++ [byte zs.length] ++ zs.flatMap (w.summary acc)

/-- The zones in use, at most 16 to a frame (R92). -/
def reportGroups (w : Works) : List (List ZoneIx) :=
  let zs := allZones.filter fun z => (w.cfg z).inUse
  [zs.take 16, (zs.drop 16).take 16, (zs.drop 32).take 16].filter fun g => !g.isEmpty

/-- REPORTs of some groups of zones, each composed and offered on its own (R92, R93). -/
def sendGroups (w : Works) (window : WinIx) (closedAt : Nat) (acc : Vector Acc 40)
    (groups : List (List ZoneIx)) : Works :=
  groups.foldl (fun w g => w.report (w.reportPayload window closedAt acc g)) w

/-- The reports of a close (R93). -/
def sendReports (w : Works) (window : WinIx) (closedAt : Nat) (acc : Vector Acc 40) : Works :=
  w.sendGroups window closedAt acc w.reportGroups

/-! ### The automatic trigger -/

/-- The target that brings an estimate back to the full point (R95, R128). -/
def autoTarget (w : Works) (z : ZoneIx) (estimate : Int) : Nat :=
  min ((((w.cfg z).full : Int) - estimate).toNat * (w.cfg z).litresPerPoint) (w.cfg z).maxVolume

/-- Conditions 1, 2 and 4 to 8 of R94. -/
def mayTrigger (w : Works) (z : ZoneIx) : Bool :=
  (w.cfg z).inUse && (w.zone z).auto && (w.zone z).quality == .fresh && (w.zone z).frost == .clear
    && (w.zone z).valve == .closed && w.valveNodeReady z && !w.hasActiveEntry z
    && decide (w.demandOf z ≤ w.site.capacity)

/-- ZTB considers one zone (R94, R95). -/
def trigger (w : Works) (z : ZoneIx) : Works :=
  match (w.zone z).estimate with
  | some e =>
    if w.mayTrigger z ∧ e < (w.cfg z).refill then w.autoPlace z (w.autoTarget z e) else w
  | none => w

/-- Zones are considered one after another (R96). -/
def triggerZones (w : Works) (zs : List ZoneIx) : Works := zs.foldl trigger w

def runTrigger (w : Works) : Works := w.triggerZones allZones

/-! ### Activation -/

/-- ZTB's share of an activation (R83). -/
def zoneActivation (w : Works) (wasInUse : ZoneIx → Bool) : Works :=
  allZones.foldl (fun w z =>
    let w1 := w.touch z
    if wasInUse z = (w1.cfg z).inUse then w1 else w1.modZone z Zone.emptied) w

end Works

end Sys2Proof.Machine
end

