-- ==== Sys2Proof/Machine/Commit.lean ====
section
/-! DEFINITION. Validation of the staging bank (R183), activation (R184), and the window close with
the commit it carries out (R77, R78, R89, R181). -/

namespace Sys2Proof.Machine

/-- Reasons of a failed commit, in the order of their checks (R183). -/
inductive CommitReason where
  | window
  | bounds
  | zone
  | valveId
  | inUse
  | capacity
  | identity
  deriving DecidableEq, Repr

def CommitReason.code : CommitReason → Byte
  | .window => 0
  | .bounds => 1
  | .zone => 2
  | .valveId => 3
  | .inUse => 4
  | .capacity => 5
  | .identity => 6

/-- Why validation failed, with the table and row at fault (R181, R183). -/
structure CommitFault where
  reason : CommitReason
  table : TableName
  row : Nat
  deriving DecidableEq, Repr

def CommitFault.bytes (f : CommitFault) : Bytes := [f.reason.code, f.table.code, byte f.row]

/-! ### Checks on rows alone -/

/-- The row's ids are in order; a row whose are not matches no id (R9, R183). -/
def WinRow.ordered (r : WinRow) : Bool := decide (r.low ≤ r.high)

/-- Two enabled rows overlap: some id lies inside both (R9, R183). -/
def WinRow.overlaps (a b : WinRow) : Bool :=
  a.enabled && b.enabled && a.ordered && b.ordered && decide (a.low ≤ b.high)
    && decide (b.low ≤ a.high)

/-- A class row's bounds are in order (R183, BOUNDS). -/
def ClassRow.ordered (r : ClassRow) : Bool := decide (r.lower ≤ r.upper)

def RoleRow.ordered (r : RoleRow) : Bool := decide (r.minInterval ≤ r.maxInterval)

/-- The relations between the fields of an in-use row (R183, ZONE). -/
def ZoneCfg.ordered (c : ZoneCfg) : Bool :=
  decide (c.refill < c.full) && decide (c.full ≤ 1000) && decide (c.warnWet < c.releaseWet)
    && decide (c.releaseWet ≤ c.watchDry)

namespace Tables

/-- The reference zone of an in-use row is in use in the bank and not the zone itself (R183). -/
def referenceGood (b : Tables) (z : ZoneIx) : Bool :=
  match b.zones[z].reference with
  | some r => b.zones[r].inUse && r != z
  | none => true

def zoneGood (b : Tables) (z : ZoneIx) : Bool :=
  !b.zones[z].inUse || (b.zones[z].ordered && b.referenceGood z)

/-- No other in-use row holds the row's valve node id (R183, VALVE_ID). -/
def valveIdGood (b : Tables) (z : ZoneIx) : Bool :=
  !b.zones[z].inUse || b.zones[z].valveNode.isNone ||
    allZones.all fun y =>
      y == z || !b.zones[y].inUse || b.zones[y].valveNode != b.zones[z].valveNode

end Tables

/-- BOUNDS names the lowest role or class code at fault; at one code the ROLE row (R183; log 25). -/
def boundsFault (b : Tables) : Option CommitFault :=
  (List.range 6).findSome? fun i =>
    match fin4? i, classCode? i with
    | some r, some c =>
      if !b.roles[r].ordered then some { reason := .bounds, table := .role, row := i }
      else if !b.classes[c].ordered then some { reason := .bounds, table := .cls, row := i }
      else none
    | none, some c =>
      if !b.classes[c].ordered then some { reason := .bounds, table := .cls, row := i } else none
    | _, none => none

/-- The lowest zone that fails a check. -/
def zoneFault (reason : CommitReason) (good : ZoneIx → Bool) : Option CommitFault :=
  (allZones.find? fun z => !good z).map fun z => { reason := reason, table := .zone, row := z.val }

namespace Works

/-- Some non-FREE entry's id lies inside an enabled row (R27, R183). -/
def coversEntry (w : Works) (r : WinRow) : Bool :=
  w.roster.toList.any fun e => e.state != .free && WinRow.covers r e.id

/-- WINDOW (R183). -/
def windowRowGood (w : Works) (b : Tables) (i : Fin 4) : Bool :=
  b.windows[i].ordered
    && (List.finRange 4).all (fun j => j == i || !b.windows[i].overlaps b.windows[j])
    && !w.coversEntry b.windows[i]

def windowFault (w : Works) (b : Tables) : Option CommitFault :=
  ((List.finRange 4).find? fun i => !w.windowRowGood b i).map fun i =>
    { reason := .window, table := .window, row := i.val }

/-- Nothing holds the zone to its place: no active entry, CLEAR or WATCH, valve CLOSED (R183,
IN_USE). -/
def zoneIdle (w : Works) (z : ZoneIx) : Bool :=
  !w.hasActiveEntry z && ((w.zone z).frost == .clear || (w.zone z).frost == .watch)
    && (w.zone z).valve == .closed

/-- IN_USE (R183). -/
def inUseGood (w : Works) (b : Tables) (z : ZoneIx) : Bool :=
  !(w.cfg z).inUse || (b.zones[z].inUse && b.zones[z].valveNode == (w.cfg z).valveNode)
    || w.zoneIdle z

/-- CAPACITY, with the staged demands (R183). -/
def capacityGood (w : Works) (b : Tables) : Bool :=
  let staged := { w with tables := b }
  decide (staged.admittedDemand ≤ b.site.capacity) &&
    irrigationSlots.all fun s =>
      match w.run s with
      | some r => !r.live || decide (staged.demandTotal r ≤ b.site.capacity)
      | none => true

/-- ID (R183). -/
def identityGood (w : Works) (b : Tables) : Bool :=
  properId b.site.controller && !w.idTaken b.site.controller

def siteFault (reason : CommitReason) (good : Bool) : Option CommitFault :=
  if good then none else some { reason := reason, table := .site, row := 0 }

/-- The first check that fails (R183). -/
def validate (w : Works) (b : Tables) : Option CommitFault :=
  (w.windowFault b).or <| (boundsFault b).or <| (zoneFault .zone b.zoneGood).or <|
    (zoneFault .valveId b.valveIdGood).or <| (zoneFault .inUse (w.inUseGood b)).or <|
    (siteFault .capacity (w.capacityGood b)).or <| siteFault .identity (w.identityGood b)

/-- RDP takes the new capacity and demands into force; grew says that free capacity is now larger
(R124, R145). -/
def offerIfGrown (w : Works) (grew : Bool) : Works :=
  w.rdpEvent fun w => if grew then w.offerAdmission else w

/-- Activation of a bank that has passed every check (R184; order of the blocks, log 8). -/
def activate (w : Works) (b : Tables) : Works :=
  let w1 := { w with tables := b }
  let w2 := w1.retimeRuns w.demandOf
  let w3 := w2.zoneActivation fun z => (w.cfg z).inUse
  let w4 := w3.frostActivation fun z => (w.cfg z).inUse
  w4.offerIfGrown (decide (w.freeCapacity < w1.freeCapacity))

/-- What a commit comes to: the part after it and, when it failed, why (R181, R183). -/
def commit (w : Works) (b : Tables) : Works × Option CommitFault :=
  match w.validate b with
  | some f => (w, some f)
  | none => (w.activate b, none)

/-- A COMMIT notice: outcome, for a failure its reason, table and row, the time of the close (R181).  Without a
failure they are left out and have no presence byte (the model's choice, log 10). -/
def commitNotice (w : Works) (f : Option CommitFault) (closedAt : Nat) : Works :=
  match f with
  | none => w.notice .commit 0 ([0] ++ be32 closedAt)
  | some f => w.notice .commit 0 ([1] ++ f.bytes ++ be32 closedAt)

end Works

/-! ### The window close -/

namespace State

/-- The OPEN window whose close deadline is reached (R77). -/
def closingWindow? (s : State) : Option WinIx :=
  (List.finRange 2).find? fun i =>
    s.windows[i].isOpen &&
      match s.windows[i].closeDeadline with
      | some d => s.works.reached d
      | none => false

/-- The other window. -/
def otherWindow (i : WinIx) : WinIx := if i = 0 then 1 else 0

/-- NRS's work at a close, when its turn has come (R37; log 7). -/
def nrsTurn (s : State) (now turn : NrsTurn) : State :=
  if now = turn then s.onWorks Works.rosterClose else s

/-- ZTB folds the window that closed (R89). -/
def foldClosed (s : State) (i : WinIx) : State :=
  match s.folds[i] with
  | some record => s.onWorks fun w => w.foldWindow s.windows[i].acc record
  | none => s

/-- MGU's share of a close: the pending commit, if there is one (R181). -/
def commitAtClose (s : State) : State :=
  if s.commitPending then
    let r := s.works.commit s.bank
    { s with works := r.1.commitNotice r.2 s.works.time, commitPending := false }
  else s

/-- The window that opens, and its fold record, after MGU has finished with the close (R78, R89). -/
def openOther (s : State) (i : WinIx) : State :=
  { s with
    windows := s.windows.set i.val
      (s.windows[i].openAt s.works.time s.works.site.windowPeriod) i.isLt,
    folds := s.folds.set i.val (some s.works.foldRecord) i.isLt }

/-- ZTB's reports, with NRS's work and its notices after one of them where it has its turn there (R92,
R93; log 7). -/
def reportsAtClose (s : State) (i : WinIx) (nrs : NrsTurn) : State :=
  s.onWorks fun w =>
    let send := fun (v : Works) groups => v.sendGroups i w.time s.windows[i].acc groups
    match nrs with
    | .afterReport k =>
      send (send w (w.reportGroups.take (k.val + 1))).rosterClose (w.reportGroups.drop (k.val + 1))
    | .beforeCommit | .beforeReports | .beforeZone _ | .afterTrigger =>
      w.sendReports i w.time s.windows[i].acc

/-- ZTB's trigger, with NRS's work before it considers a zone where it has its turn there (R94, R96;
log 7). -/
def triggerAtClose (s : State) (nrs : NrsTurn) : State :=
  s.onWorks fun w =>
    match nrs with
    | .beforeZone z =>
      (w.triggerZones (allZones.take z.val)).rosterClose.triggerZones (allZones.drop z.val)
    | .beforeCommit | .beforeReports | .afterReport _ | .afterTrigger => w.runTrigger

/-- A window close, whole (R77, R89).  NRS's work falls in one place, whole, before, among or after the
others' (the model's choice, log 7). -/
def closeWindow (s : State) (i : WinIx) (nrs : NrsTurn) : State :=
  let s1 := { s with windows := s.windows.set i.val (s.windows[i].close s.works.time) i.isLt }
  let s2 := (s1.foldClosed i).nrsTurn nrs .beforeCommit
  let s3 := (s2.commitAtClose.openOther (otherWindow i)).nrsTurn nrs .beforeReports
  let s4 := (s3.reportsAtClose i nrs).triggerAtClose nrs
  s4.nrsTurn nrs .afterTrigger

end State

end Sys2Proof.Machine
end

