-- ==== Sys2Proof/Machine/Enroll.lean ====
section
/-! DEFINITION. ENU: screening and acceptance of JOINs (R49 to R54), sheets (R55 to R57, R61), how an
exchange ends (R58, R59) and early traffic (R60). -/

namespace Sys2Proof.Machine

/-- Reasons of a REFUSE frame (11.2). -/
inductive RefuseReason where
  | busy
  | notListed
  | windowed
  | closed
  | role
  | tooLong
  deriving DecidableEq, Repr

def RefuseReason.code : RefuseReason → Byte
  | .busy => 0
  | .notListed => 1
  | .windowed => 2
  | .closed => 3
  | .role => 4
  | .tooLong => 5

/-- Reasons of an ENROLL_FAILED notice (11.1). -/
inductive FailReason where
  | timeout
  | tooLong
  deriving DecidableEq, Repr

def FailReason.code : FailReason → Byte
  | .timeout => 0
  | .tooLong => 1

/-- The channel records of a completed exchange (R58). -/
def Ctx.channels (x : Ctx) : List Channel :=
  (x.declared.zip x.staged.toList).map fun (c, cal) =>
    match cal with
    | some k => { cls := c, offset := k.offset, scale := k.scale, latest := none }
    | none => { cls := c, offset := 0, scale := 1024, latest := none }

/-- Channels with a staged calibration (R58). -/
def Ctx.calibrated (x : Ctx) : Nat := (x.staged.toList.filter Option.isSome).length

namespace Works

/-- A REFUSE to the node (R62). -/
def refuse (w : Works) (node : NodeId) (r : RefuseReason) : Works :=
  w.submitCommand kindRefuse node [r.code]

/-- A SHEET_ACK to the node (R55, R62). -/
def sheetAck (w : Works) (node : NodeId) (mark applied : Bool) : Works :=
  w.submitCommand kindSheetAck node [flagByte mark, flagByte applied]

/-- The free context of lowest index (R48). -/
def freeCtx? (w : Works) : Option CtxIx := (List.finRange 4).find? fun c => (w.ctx c).isNone

/-- The FREE entry of lowest index (R50). -/
def freeEntry? (w : Works) : Option EntryIx :=
  allEntries.find? fun e => (w.entry e).state == .free

/-- The requested interval clamped to the role's row (R52). -/
def clampInterval (w : Works) (r : Role) (requested : Nat) : Nat :=
  max w.tables.roles[r.ix].minInterval (min requested w.tables.roles[r.ix].maxInterval)

/-- A context as acceptance of a JOIN fills it (R52, R54). -/
def filledCtx (w : Works) (e : EntryIx) (returnTo : ReturnState) (j : Join) (early : Bool) : Ctx :=
  { entry := e, returnTo := returnTo, declared := j.declared,
    interval := w.clampInterval j.role j.interval, sheets := 0, expected := false, lastAck := none,
    staged := Vector.replicate 4 none, stagedNote := none, early := early, deadline := none }

/-! ### How an exchange ends -/

/-- The detail of an ENROLLED notice (R58). -/
def enrolledDetail (w : Works) (x : Ctx) : Bytes :=
  beId (w.entry x.entry).id
    ++ [(w.entry x.entry).role.code, zoneOrNone (w.entry x.entry).zone] ++ be16 x.interval
    ++ [byte x.calibrated, flagByte x.early] ++ optBytes 8 x.stagedNote

/-- The exchange of context c completes (R58). -/
def completeExchange (w : Works) (c : CtxIx) (x : Ctx) : Works :=
  let w1 := (w.setCtx c none).nodeTo x.entry .active fun n =>
    { n with channels := x.channels, note := x.stagedNote, interval := x.interval,
             lastHeard := w.time, lastSeq := none, frames := 0, muteCloses := 0, badStreak := 0 }
  (w1.notice .enrolled (byte x.entry.val) (w1.enrolledDetail x)).nowActive x.entry

/-- The entry as a failed exchange returns it (R59). -/
def returnEntry (w : Works) (x : Ctx) : Works :=
  match x.returnTo with
  | .free => w.nodeTo x.entry .free fun n => Entry.free n.gen
  | .reserved => w.nodeTo x.entry .reserved id

/-- The exchange of context c fails (R57, R59). -/
def failExchange (w : Works) (c : CtxIx) (x : Ctx) (r : FailReason) : Works :=
  let w1 := (w.setCtx c none).returnEntry x
  let w2 := w1.notice .enrollFailed (byte x.entry.val)
    ([r.code] ++ beId (w.entry x.entry).id ++ [byte x.sheets, flagByte x.early,
      x.returnTo.toNode.code])
  w2.tellFrost (w.entry x.entry).airZone

/-! ### Acceptance -/

/-- After its ACCEPT an exchange completes at once or sets its deadline (R52, R54). -/
def afterAccept (w : Works) (c : CtxIx) (x : Ctx) (continues : Bool) : Works :=
  if continues then w.setCtx c (some { x with deadline := some (after w.time Config.sheetWait) })
  else w.completeExchange c x

/-- ACCEPT is submitted with the assigned interval, and the exchange goes on (R52, R54). -/
def sendAccept (w : Works) (c : CtxIx) (x : Ctx) (continues : Bool) : Works :=
  (w.submitCommand kindAccept (w.entry x.entry).id (be16 x.interval)).afterAccept c x continues

/-- The restart of a valve node, told to VCU (R53). -/
def tellRestart (w : Works) (id : NodeId) : Works :=
  match w.valveZone? id with
  | some z => w.valveRestart z
  | none => w

/-- The entry becomes ENROLLING; identify sets what R50 sets (R52). -/
def beginEnrolling (w : Works) (e : EntryIx) (identify : Entry → Entry) : Works :=
  (w.nodeTo e .enrolling fun n =>
      identify { n.clearLatest with lastSeq := none, frames := 0, muteCloses := 0,
                                    badStreak := 0 }).tellFrost
    (w.entry e).airZone

/-- Acceptance under R52 into context c.  On a restart FRW recomputes the figures of the node's zone first
(R41), then comes VCU's work with the admission it offers, then the ACCEPT: R41, R52, R53 and R161 put them
in one step without an order, which is the model's choice (log 32). -/
def acceptJoin (w : Works) (c : CtxIx) (e : EntryIx) (returnTo : ReturnState)
    (identify : Entry → Entry) (restart : Option NodeId) (j : Join) : Works :=
  let x := w.filledCtx e returnTo j false
  let w1 := (w.setCtx c (some x)).beginEnrolling e identify
  let w2 := match restart with
    | some id => w1.tellRestart id
    | none => w1
  w2.sendAccept c x j.continues

/-- A JOIN from an unknown id (R50). -/
def joinUnknown (w : Works) (src : NodeId) (j : Join) : Works :=
  match w.site.policy with
  | .closed => w.refuse src .closed
  | .listed => w.refuse src .notListed
  | .anyone =>
    match w.freeEntry?, w.freeCtx? with
    | some e, some c =>
      w.acceptJoin c e .free (fun n => { n with id := src, role := j.role, zone := none }) none j
    | _, _ => w.refuse src .busy

/-- A JOIN from a RESERVED entry (R51). -/
def joinReserved (w : Works) (e : EntryIx) (src : NodeId) (j : Join) : Works :=
  if w.site.policy = .closed then w.refuse src .closed
  else if j.role ≠ (w.entry e).role then w.refuse src .role
  else
    match w.freeCtx? with
    | some c => w.acceptJoin c e .reserved id none j
    | none => w.refuse src .busy

/-- A JOIN from an enrolled entry: the node has restarted (R53). -/
def joinEnrolled (w : Works) (e : EntryIx) (src : NodeId) (j : Join) : Works :=
  if j.role ≠ (w.entry e).role then w.refuse src .role
  else
    match w.freeCtx? with
    | some c => w.acceptJoin c e .reserved id (some src) j
    | none => w.refuse src .busy

/-- A re-JOIN works in the context already held; with no sheet accepted the refilled context differs
from the old one only in its channels and interval (R54). -/
def rejoin (w : Works) (e : EntryIx) (src : NodeId) (j : Join) : Works :=
  if j.role ≠ (w.entry e).role then w.refuse src .role
  else
    match w.ctxOf e with
    | some c =>
      match w.ctx c with
      | some old =>
        let x := w.filledCtx e old.returnTo j old.early
        (w.setCtx c (some x)).sendAccept c x j.continues
      | none => w
    | none => w

/-- A JOIN that the screening lets through, by its source lookup (R49 step 4). -/
def joinByState (w : Works) (e : EntryIx) (s : NodeState) (src : NodeId) (j : Join) : Works :=
  match s with
  | .reserved => w.joinReserved e src j
  | .enrolling => w.rejoin e src j
  | .active | .silent | .lost | .muted | .quarantined => w.joinEnrolled e src j
  | .free => w

/-- ENU takes a JOIN (R49, R190). -/
def takeJoin (w : Works) (src : NodeId) (payload : Bytes) : Works :=
  match join? payload with
  | none => w.latchStray
  | some j =>
    if !w.sourceValid src then w.latchStray
    else
      match w.lookup src with
      | .window _ _ _ => w.refuse src .windowed
      | .none => if w.tables.roles[j.role.ix].allowed then w.joinUnknown src j else w.refuse src .role
      | .roster e s =>
        if w.tables.roles[j.role.ix].allowed then w.joinByState e s src j else w.refuse src .role

/-! ### Sheets -/

/-- What a new sheet stages, and its applied flag (R55). -/
def stageSheet (x : Ctx) (b : SheetBody) : Ctx × Bool :=
  match b with
  | .cal channel offset scale =>
    match fin4? channel with
    | some i =>
      if channel < x.declared.length ∧ -500 ≤ offset ∧ offset ≤ 500 ∧ 512 ≤ scale ∧ scale ≤ 2047 then
        ({ x with staged := x.staged.set i.val (some { offset := offset, scale := scale }) i.isLt },
          true)
      else (x, false)
    | none => (x, false)
  | .note bytes => ({ x with stagedNote := some bytes }, true)
  | .unknown => (x, false)

/-- A new sheet (R55). -/
def newSheet (w : Works) (c : CtxIx) (x : Ctx) (src : NodeId) (s : Sheet) : Works :=
  let (x1, applied) := stageSheet x s.body
  let x2 := { x1 with sheets := x.sheets + 1, lastAck := some applied, expected := !x.expected }
  let w1 := (w.setCtx c (some x2)).sheetAck src s.mark applied
  if s.continues then
    w1.setCtx c (some { x2 with deadline := some (after w.time Config.sheetWait) })
  else w1.completeExchange c x2

/-- A sheet from an ENROLLING entry (R55 to R57). -/
def sheetInExchange (w : Works) (c : CtxIx) (x : Ctx) (src : NodeId) (s : Sheet) : Works :=
  if s.mark = x.expected then
    if x.sheets < Config.sheetLimit then w.newSheet c x src s
    else (w.refuse src .tooLong).failExchange c x .tooLong
  else
    match x.lastAck with
    | some applied => w.sheetAck src s.mark applied
    | none => w

/-- The applied flag of a late sheet: whether the entry holds what the sheet says (R61). -/
def lateApplied (n : Entry) (b : SheetBody) : Bool :=
  match b with
  | .cal channel offset scale =>
    match n.channels[channel]? with
    | some k => k.offset == offset && k.scale == scale
    | none => false
  | .note bytes => n.note == some bytes
  | .unknown => false

/-- A sheet by the state of the entry it comes from (R55 to R57, R61). -/
def sheetByState (w : Works) (e : EntryIx) (st : NodeState) (src : NodeId) (s : Sheet) : Works :=
  match st with
  | .enrolling =>
    match w.ctxOf e with
    | some c =>
      match w.ctx c with
      | some x => w.sheetInExchange c x src s
      | none => w
    | none => w
  | .active | .silent | .lost | .muted | .quarantined =>
    w.sheetAck src s.mark (lateApplied (w.entry e) s.body)
  | .free | .reserved => w.latchStray

/-- ENU takes a SHEET (R49, R55, R61, R190). -/
def takeSheet (w : Works) (src : NodeId) (payload : Bytes) : Works :=
  match sheet? payload with
  | none => w.latchStray
  | some s =>
    if !w.sourceValid src then w.latchStray
    else
      match w.lookup src with
      | .roster e st => w.sheetByState e st src s
      | .window _ _ _ => w.latchStray
      | .none => w.latchStray

/-! ### Early traffic -/

/-- ENU takes a READING that FCL found to be from an ENROLLING entry; one whose exchange has ended
since has no effect (R60; log 28). -/
def takeEarly (w : Works) (src : NodeId) (hit : Hit) : Works :=
  match hit with
  | .roster e _ =>
    if (w.entry e).state = .enrolling ∧ (w.entry e).id = src then
      match w.ctxOf e with
      | some c => { w with ctxs := upd w.ctxs c fun x => x.map fun y => { y with early := true } }
      | none => w
    else w
  | .window _ _ _ => w
  | .none => w

/-- The sheet deadline of a context expires (R59). -/
def sheetExpiry (w : Works) (c : CtxIx) : Works :=
  match w.ctx c with
  | some x =>
    match x.deadline with
    | some d => if w.reached d then w.failExchange c x .timeout else w
    | none => w
  | none => w

end Works

end Sys2Proof.Machine
end

