-- ==== Sys2Proof/Machine/Requests.lean ====
section
/-! DEFINITION. How MGU takes a request and answers it: the requests as their bytes spell them (R173,
11.4), authority (R172), and replies with their shortened form (R174, R191). -/

namespace Sys2Proof.Machine

/-- Result codes (11.4). -/
inductive ResultCode where
  | done
  | privilege
  | stale
  | range
  | state
  | commitPending
  | noRoom
  | inUse
  | windowed
  | unknown
  | full
  | malformed
  deriving DecidableEq, Repr

def ResultCode.code : ResultCode → Byte
  | .done => 0x00
  | .privilege => 0x01
  | .stale => 0x02
  | .range => 0x03
  | .state => 0x04
  | .commitPending => 0x05
  | .noRoom => 0x06
  | .inUse => 0x07
  | .windowed => 0x08
  | .unknown => 0x09
  | .full => 0x0A
  | .malformed => 0x0B

/-! ### Requests -/

/-- A request whose code and argument length are those of its layout (R173 step 1, 11.4).  Values are
not judged here. -/
inductive Req where
  | timeRead
  | timeSet (time : Nat)
  | start
  | reset
  | stageWrite (table : TableName) (row : Nat) (fields : Bytes)
  | stageWriteUnknown
  | stageRead (table : Option TableName) (row : Nat)
  | stageCommit
  | stageDiscard
  | tableRead (table : Byte) (row : Nat)
  | nodeRead (entry : Nat)
  | nodeProbe (node : NodeId)
  | reserve (entry : Nat) (gen : Word16) (node : NodeId) (role : Byte) (zone : Byte)
  | nodeWriteUnknown
  | assign (entry : Nat) (gen : Word16) (zone : Byte)
  | release (entry : Nat) (gen : Word16)
  | restore (entry : Nat) (gen : Word16)
  | zoneRead (zone : Nat)
  | zoneControlSet (zone : Nat) (gen : Word16) (auto : Byte) (protection : Byte)
  | zoneControlUnknown
  | clearValve (zone : Nat) (gen : Word16)
  | runOpen (items : List (Nat × Nat))
  | runCancel (slot : Nat) (number : Word16)
  | runRead (slot : Nat) (first : Nat)
  | windowRead (window : Nat) (first : Nat)
  | passSend (frame : Bytes)
  | watchSet (ix : Nat) (flags : Byte) (node : NodeId) (kind : Byte)
  | watchClear (ix : Nat)
  | noticeMask (kinds : Bytes)
  | statusRead
  deriving DecidableEq, Repr

def word16 (hi lo : Byte) : Word16 := BitVec.ofNat 16 (nat16 hi lo)

/-- Items of zone and target, when the length is a multiple of 3 (11.4). -/
def runItems? : Bytes → Option (List (Nat × Nat))
  | [] => some []
  | z :: hi :: lo :: rest => (runItems? rest).map fun is => (z.toNat, nat16 hi lo) :: is
  | _ => none

/-- STAGE.WRITE: the length is judged once the table is known (11.4). -/
def stageWrite? (args : Bytes) : Option Req :=
  match args with
  | [] => none
  | t :: rest =>
    match tableName? t, rest with
    | none, _ => some .stageWriteUnknown
    | some name, row :: fields =>
      if fields.length = name.rowBytes then some (.stageWrite name row.toNat fields) else none
    | some _, [] => none

/-- STAGE.READ: the WATCH table gives RANGE whatever follows its code (R179). -/
def stageRead? (args : Bytes) : Option Req :=
  match args with
  | [t, row] => some (.stageRead (tableName? t) row.toNat)
  | t :: _ => if t = watchTable then some (.stageRead none 0) else none
  | [] => none

/-- NODE.WRITE_IF: the length is judged once the operation is known (11.4). -/
def nodeWrite? (args : Bytes) : Option Req :=
  match args with
  | e :: g1 :: g0 :: op :: rest =>
    if op = 0x00 then
      match rest with
      | [i2, i1, i0, r, z] => some (.reserve e.toNat (word16 g1 g0) (nodeId i2 i1 i0) r z)
      | _ => none
    else if op = 0x01 then
      match rest with
      | [z] => some (.assign e.toNat (word16 g1 g0) z)
      | _ => none
    else if op = 0x02 then if rest = [] then some (.release e.toNat (word16 g1 g0)) else none
    else if op = 0x03 then if rest = [] then some (.restore e.toNat (word16 g1 g0)) else none
    else some .nodeWriteUnknown
  | _ => none

/-- ZONE.CONTROL_IF: the length is judged once the operation is known (11.4). -/
def zoneControl? (args : Bytes) : Option Req :=
  match args with
  | z :: g1 :: g0 :: op :: rest =>
    if op = 0x00 then
      match rest with
      | [a, p] => some (.zoneControlSet z.toNat (word16 g1 g0) a p)
      | _ => none
    else if op = 0x01 then if rest = [] then some (.clearValve z.toNat (word16 g1 g0)) else none
    else some .zoneControlUnknown
  | _ => none

/-- Requests with no arguments (11.4). -/
def bareRequest? (code : Byte) : Option Req :=
  if code = 0x01 then some .timeRead
  else if code = 0x03 then some .start
  else if code = 0x04 then some .reset
  else if code = 0x07 then some .stageCommit
  else if code = 0x08 then some .stageDiscard
  else if code = 0x17 then some .statusRead
  else none

/-- Requests of a fixed argument length (11.4). -/
def plainRequest? (code : Byte) (args : Bytes) : Option Req :=
  match args with
  | [] => bareRequest? code
  | [a] =>
    if code = 0x0A then some (.nodeRead a.toNat)
    else if code = 0x0D then some (.zoneRead a.toNat)
    else if code = 0x15 then some (.watchClear a.toNat)
    else none
  | [a, b] =>
    if code = 0x09 then some (.tableRead a b.toNat)
    else if code = 0x11 then some (.runRead a.toNat b.toNat)
    else if code = 0x12 then some (.windowRead a.toNat b.toNat)
    else none
  | [a, b, c] =>
    if code = 0x0B then some (.nodeProbe (nodeId a b c))
    else if code = 0x10 then some (.runCancel a.toNat (word16 b c))
    else none
  | [a, b, c, d] => if code = 0x02 then some (.timeSet (nat32 a b c d)) else none
  | [i, f, n2, n1, n0, k] =>
    if code = 0x14 then some (.watchSet i.toNat f (nodeId n2 n1 n0) k) else none
  | _ => none

/-- The request that a code and arguments spell; none is MALFORMED (R173).  The frame of a PASS.SEND is not
looked at here: R188 judges it, so after authority (11.4 and R173 leave the place open; log 48). -/
def request? (code : Byte) (args : Bytes) : Option Req :=
  if code = 0x05 then stageWrite? args
  else if code = 0x06 then stageRead? args
  else if code = 0x0C then nodeWrite? args
  else if code = 0x0E then zoneControl? args
  else if code = 0x0F then (runItems? args).map Req.runOpen
  else if code = 0x13 then some (.passSend args)
  else if code = 0x16 then if args.length ≤ 18 then some (.noticeMask args) else none
  else plainRequest? code args

/-- The rows of the command table that take a request: one for each request name, one for each known
operation of the two conditional writes, and MALFORMED_REQUEST (R173). -/
inductive RequestRow where
  | timeRead
  | timeSet
  | start
  | reset
  | stageWrite
  | stageRead
  | stageCommit
  | stageDiscard
  | tableRead
  | nodeRead
  | nodeProbe
  | reserve
  | assign
  | release
  | restore
  | zoneRead
  | zoneControlSet
  | clearValve
  | runOpen
  | runCancel
  | runRead
  | windowRead
  | passSend
  | watchSet
  | watchClear
  | noticeMask
  | statusRead
  | malformed
  deriving DecidableEq, Repr

/-- The row of a NODE.WRITE_IF, by its operation; an operation that is unknown or missing is RESERVE's
(log 5). -/
def nodeWriteRow (args : Bytes) : RequestRow :=
  match args with
  | _ :: _ :: _ :: op :: _ =>
    if op = 0x01 then .assign else if op = 0x02 then .release else if op = 0x03 then .restore
    else .reserve
  | _ => .reserve

/-- The row of a ZONE.CONTROL_IF, by its operation; an operation that is unknown or missing is SET's
(log 5). -/
def zoneControlRow (args : Bytes) : RequestRow :=
  match args with
  | _ :: _ :: _ :: op :: _ => if op = 0x01 then .clearValve else .zoneControlSet
  | _ => .zoneControlSet

/-- Request codes with a row of their own, in code order from 01h (11.4); the two conditional writes
are left to their operations. -/
def plainRow (code : Nat) : RequestRow :=
  match code with
  | 1 => .timeRead
  | 2 => .timeSet
  | 3 => .start
  | 4 => .reset
  | 5 => .stageWrite
  | 6 => .stageRead
  | 7 => .stageCommit
  | 8 => .stageDiscard
  | 9 => .tableRead
  | 10 => .nodeRead
  | 11 => .nodeProbe
  | 13 => .zoneRead
  | 15 => .runOpen
  | 16 => .runCancel
  | 17 => .runRead
  | 18 => .windowRead
  | 19 => .passSend
  | 20 => .watchSet
  | 21 => .watchClear
  | 22 => .noticeMask
  | 23 => .statusRead
  | _ => .malformed

/-- The row that takes a request of this code (R173, 11.4). -/
def requestRow (code : Byte) (args : Bytes) : RequestRow :=
  if code = 0x0C then nodeWriteRow args
  else if code = 0x0E then zoneControlRow args
  else plainRow code.toNat

/-! ### Taking a request -/

/-- A request as it stands at the head of its port: its code and arguments, the tag or sequence its
reply echoes, and for the field its source, entry and role (R172, R174). -/
structure Taken where
  code : Byte
  args : Bytes
  echo : Byte
  src : NodeId
  hit : Hit
  role : Option Role
  deriving DecidableEq, Repr

/-- The code and arguments of a payload; an empty one has code 00h (R190; log 5). -/
def codeAndArgs (payload : Bytes) : Byte × Bytes :=
  match payload with
  | c :: args => (c, args)
  | [] => (0, [])

/-- The next request of the uplink (R21, R173). -/
def takenUplink? (frame : Bytes) : Option Taken :=
  (uplinkFrame? frame).map fun f =>
    { code := (codeAndArgs f.payload).1, args := (codeAndArgs f.payload).2, echo := f.tag, src := 0,
      hit := .none, role := none }

/-- The next request of the field (R173). -/
def takenField? (h : HandOff) : Option Taken :=
  (fieldFrame? h.frame).map fun f =>
    { code := (codeAndArgs f.payload).1, args := (codeAndArgs f.payload).2, echo := f.seq,
      src := f.src, hit := h.hit, role := h.role }

namespace State

/-- The request at the head of a port's queue; none is taken once RESET is answered (R177). -/
def nextRequest (s : State) (port : Port) : Option Taken :=
  if s.resetAnswered then none
  else
    match port with
    | .uplink => s.requests.head?.bind takenUplink?
    | .field => s.mguQueue.head?.bind takenField?

/-- The request leaves its queue (R21, R3). -/
def dropRequest (s : State) (port : Port) : State :=
  match port with
  | .uplink => { s with requests := s.requests.tail }
  | .field => { s with mguQueue := s.mguQueue.tail }

end State

/-! ### Replies -/

/-- An answer: its result, its items in order, and its trailing list if it has one (R191). -/
structure Answer where
  result : ResultCode
  items : List Bytes
  list : Option (List Bytes)
  deriving DecidableEq, Repr

/-- A refusal without data (R191). -/
def Answer.refused (r : ResultCode) : Answer := { result := r, items := [], list := none }

/-- DONE with items and no list. -/
def Answer.done (items : List Bytes) : Answer := { result := .done, items := items, list := none }

/-- STALE with the current generation (R191). -/
def Answer.stale (gen : Word16) : Answer :=
  { result := .stale, items := [be16 gen.toNat], list := none }

/-- A generation as reply data. -/
def genItem (g : Word16) : Bytes := be16 g.toNat

/-- A list with its count byte (R191). -/
def counted (items : List Bytes) : Bytes := byte items.length :: items.flatten

/-- Result data of a REPLY (R191). -/
def Answer.data (a : Answer) : Bytes :=
  match a.list with
  | some l => a.items.flatten ++ counted l
  | none => a.items.flatten

/-- The longest run of whole items that fits in n bytes. -/
def fitting : Nat → List Bytes → List Bytes
  | _, [] => []
  | n, i :: is => if i.length ≤ n then i :: fitting (n - i.length) is else []

/-- Result data of an MGMT_REPLY, shortened to 37 bytes (R174, R191). -/
def Answer.fieldData (a : Answer) : Bytes :=
  match a.list with
  | some l =>
    if a.items.flatten.length + 1 ≤ Config.fieldDataMax then
      a.items.flatten ++ counted (fitting (Config.fieldDataMax - (a.items.flatten.length + 1)) l)
    else (fitting Config.fieldDataMax a.items).flatten
  | none => (fitting Config.fieldDataMax a.items).flatten

namespace State

/-- The reply leaves by the port of its request (R174). -/
def answer (s : State) (port : Port) (t : Taken) (a : Answer) : State :=
  match port with
  | .uplink => s.onWorks fun w => w.reply t.echo ([t.code, a.result.code] ++ a.data)
  | .field => s.onWorks fun w => w.submitReply t.src ([t.echo, t.code, a.result.code] ++ a.fieldData)

/-- A field request refused PRIVILEGE raises an AUTHORITY notice: roster index, node id, request name
(R172). -/
def authorityNotice (s : State) (t : Taken) : State :=
  match t.hit with
  | .roster e _ =>
    s.onWorks fun w => w.notice .authority (byte e.val) ([byte e.val] ++ beId t.src ++ [t.code])
  | .window _ _ _ => s
  | .none => s

/-- The authority of a request (R172): dropped as a stray, refused, or judged by its own rule. -/
inductive Standing where
  | stray
  | privilege
  | judged
  deriving DecidableEq, Repr

/-- What R172 makes of a request that FIELD authority may or may not use. -/
def standing (port : Port) (t : Taken) (fieldMay : Bool) : Standing :=
  match port with
  | .uplink => .judged
  | .field =>
    if t.role = some .service then (if fieldMay then .judged else .privilege) else .stray

/-- What a request row does: the arguments it reads from a request of its name, whether FIELD authority
may use it, and its work, which carries the request out or refuses it. -/
structure Service (α : Type) where
  pick : Req → Option α
  fieldMay : α → Bool
  body : α → State → State × Answer

/-- MGU's work on a request it has taken, whose code is the row's (R172 to R174): MALFORMED first,
then authority, then the request's own rule. -/
def carryOut {α : Type} (s : State) (port : Port) (t : Taken) (v : Service α) : State :=
  match (request? t.code t.args).bind v.pick with
  | none =>
    match standing port t true with
    | .stray => s.onWorks Works.latchStray
    | .privilege | .judged => s.answer port t (.refused .malformed)
  | some a =>
    match standing port t (v.fieldMay a) with
    | .stray => s.onWorks Works.latchStray
    | .privilege => (s.authorityNotice t).answer port t (.refused .privilege)
    | .judged => (v.body a s).1.answer port t (v.body a s).2

/-- MGU takes the head of a port's queue when it is the row's (R173; log 4). -/
def serve {α : Type} (s : State) (port : Port) (row : RequestRow) (v : Service α) : State :=
  match s.nextRequest port with
  | none => s
  | some t =>
    if requestRow t.code t.args = row then (s.dropRequest port).carryOut port t v else s

end State

end Sys2Proof.Machine
end

