-- ==== Sys2Proof/Machine/ServeDevice.lean ====
section
/-! DEFINITION. MGU's requests about the part itself: device time (R175), START (R176), RESET (R177),
status (R187), the notice mask (R185), watch points (R6) and PASS.SEND (R188). -/

namespace Sys2Proof.Machine

namespace State

/-- The outcome of every command: the step's end (R22, R165). -/
def conclude (s : State) : Host.Outcome State Fault Refusal := .next s.finish

/-! ### Device time -/

/-- TIME.READ returns device time (R175). -/
def timeReadBody (_ : Unit) (s : State) : State × Answer := (s, .done [be32 s.works.time])

/-- The answer wait of a transmission in flight keeps what is left of it (R175). -/
def moveWait (s : State) (time : Nat) : Option InFlight :=
  s.inFlight.map fun f => { f with expiry := after time (f.expiry - s.works.time) }

/-- TIME.SET sets device time in HALTED and is refused STATE in RUNNING (R175). -/
def timeSetBody (time : Nat) (s : State) : State × Answer :=
  if s.works.running then (s, .refused .state)
  else ({ s with inFlight := s.moveWait time, works := { s.works with time := time } }, .done [])

/-! ### START and RESET -/

/-- What START does to what the blocks share (R39, R162, R118). -/
def startWorks (w : Works) : Works :=
  { w with device := .running, alert := false, alertTimer := none }.rosterStart.startBroadcast

/-- START in HALTED: window A opens with its fold record (R76, R89, R176). -/
def started (s : State) : State :=
  { s with
    works := startWorks s.works,
    windows := s.windows.set 0 (s.windows[0].openAt s.works.time s.works.site.windowPeriod),
    folds := s.folds.set 0 (some s.works.foldRecord) }

/-- START is refused STATE in RUNNING (R176). -/
def startBody (_ : Unit) (s : State) : State × Answer :=
  if s.works.running then (s, .refused .state) else (s.started, .done [be32 s.works.time])

/-- RESET is answered DONE, and no further request is taken (R177). -/
def resetBody (_ : Unit) (s : State) : State × Answer :=
  ({ s with resetAnswered := true }, .done [])

/-! ### Status -/

/-- The eleven latches in the order R187 names them. -/
def latchItems (l : Latches) : List Bytes :=
  [l.fieldCheck, l.fieldOverrun, l.uplinkCheck, l.uplinkShed, l.noticeGap, l.reportShed, l.flowFault,
    l.leak, l.runFull, l.stray, l.bounds].map fun b => [flagByte b]

/-- Enrollment contexts in use (R48). -/
def contextsInUse (w : Works) : Nat := (w.ctxs.toList.filter Option.isSome).length

/-- What STATUS.READ returns (R187). -/
def statusItems (s : State) : List Bytes :=
  latchItems s.works.latches
    ++ [be16 s.works.fieldErrors, be16 s.works.uplinkErrors, [s.works.device.code],
      be32 s.works.time, [flagByte s.commitPending], [s.works.line.state.code],
      [flagByte s.works.line.pumpOn], [valvePositionCode s.works.line.masterOpen],
      [valvePositionCode s.works.line.drainOpen], [flagByte s.works.alert],
      [byte (contextsInUse s.works)]]

/-- STATUS.READ returns, then clears, the latches and counts (R187). -/
def statusReadBody (_ : Unit) (s : State) : State × Answer :=
  (s.onWorks Works.clearStatus, .done s.statusItems)

/-! ### Notice mask -/

/-- A kind code the part knows (11.4). -/
def knownKind (b : Byte) : Bool := decide (1 ≤ b.toNat) && decide (b.toNat ≤ 18)

/-- The mask that enables the kinds listed (R185, 11.4). -/
def maskOf (kinds : Bytes) : Vector Bool 18 :=
  mapRows (fun i : Fin 18 => kinds.any fun b => b.toNat == i.val + 1)
    ⟨(List.finRange 18).toArray, by simp⟩

/-- NOTICE.MASK writes all eighteen enables (R185). -/
def noticeMaskBody (kinds : Bytes) (s : State) : State × Answer :=
  if kinds.all knownKind then
    (s.onWorks fun w => { w with mask := maskOf kinds },
      .done ((maskOf kinds).toList.map fun b => [flagByte b]))
  else (s, .refused .range)

/-! ### Watch points -/

/-- The specification WATCH.SET writes (R6; flag bits 3 to 7 are not looked at, log 27). -/
def watchSpec (flags : Byte) (node : NodeId) (kind : Byte) : WatchPoint :=
  { armed := true, id := if flags.getLsbD 0 then none else some node,
    kind := if flags.getLsbD 1 then none else some kind, oneShot := flags.getLsbD 2, hits := 0 }

/-- WATCH.SET (R6). -/
def watchSetBody (a : Nat × WatchPoint) (s : State) : State × Answer :=
  match fin4? a.1 with
  | some i => ({ s with watch := s.watch.set i.val a.2 i.isLt }, .done [])
  | none => (s, .refused .range)

/-- WATCH.CLEAR (R6). -/
def watchClearBody (ix : Nat) (s : State) : State × Answer :=
  watchSetBody (ix, WatchPoint.cleared) s

/-! ### PASS.SEND -/

/-- A VALVE_CMD that would move a valve VCU keeps (R188). -/
def movesValve (w : Works) (f : FieldFrame) : Bool :=
  f.kind == kindValveCmd &&
    ((w.valveZone? f.dst).isSome ||
      (f.dst == Config.broadcast && allZones.any fun z => (w.cfg z).inUse))

/-- PASS.SEND (R188). -/
def passSendBody (frame : Bytes) (s : State) : State × Answer :=
  if fieldLengthGood frame then
    match fieldFrame? frame with
    | none => (s, .refused .malformed)
    | some f =>
      if movesValve s.works f then (s, .refused .inUse)
      else if Config.passCapacity ≤ s.works.pass.length then (s, .refused .full)
      else (s.onWorks fun w => w.submitPass frame, .done [])
  else (s, .refused .malformed)

/-! ### The services -/

def timeReadService : Service Unit :=
  { pick := fun q => if q = .timeRead then some () else none, fieldMay := fun _ => true,
    body := timeReadBody }

def timeSetService : Service Nat :=
  { pick := fun
      | .timeSet t => some t
      | _ => none,
    fieldMay := fun _ => false, body := timeSetBody }

def startService : Service Unit :=
  { pick := fun q => if q = .start then some () else none, fieldMay := fun _ => false,
    body := startBody }

def resetService : Service Unit :=
  { pick := fun q => if q = .reset then some () else none, fieldMay := fun _ => false,
    body := resetBody }

def statusReadService : Service Unit :=
  { pick := fun q => if q = .statusRead then some () else none, fieldMay := fun _ => false,
    body := statusReadBody }

def noticeMaskService : Service Bytes :=
  { pick := fun
      | .noticeMask kinds => some kinds
      | _ => none,
    fieldMay := fun _ => false, body := noticeMaskBody }

def watchSetService : Service (Nat × WatchPoint) :=
  { pick := fun
      | .watchSet ix flags node kind => some (ix, watchSpec flags node kind)
      | _ => none,
    fieldMay := fun _ => false, body := watchSetBody }

def watchClearService : Service Nat :=
  { pick := fun
      | .watchClear ix => some ix
      | _ => none,
    fieldMay := fun _ => false, body := watchClearBody }

def passSendService : Service Bytes :=
  { pick := fun
      | .passSend frame => some frame
      | _ => none,
    fieldMay := fun _ => false, body := passSendBody }

/-- No argument list is the row's: the request code is unknown, or the payload empty (R173, R190). -/
def malformedService : Service Unit :=
  { pick := fun _ => none, fieldMay := fun _ => true, body := fun _ s => (s, .refused .malformed) }

end State

/-! ### The meanings -/

open State

def execTimeRead (port : Port) (s : State) : Host.Outcome State Fault Refusal :=
  (s.serve port .timeRead timeReadService).conclude

def execTimeSet (port : Port) (s : State) : Host.Outcome State Fault Refusal :=
  (s.serve port .timeSet timeSetService).conclude

def execStart (port : Port) (s : State) : Host.Outcome State Fault Refusal :=
  (s.serve port .start startService).conclude

def execReset (port : Port) (s : State) : Host.Outcome State Fault Refusal :=
  (s.serve port .reset resetService).conclude

def execStatusRead (port : Port) (s : State) : Host.Outcome State Fault Refusal :=
  (s.serve port .statusRead statusReadService).conclude

def execNoticeMask (port : Port) (s : State) : Host.Outcome State Fault Refusal :=
  (s.serve port .noticeMask noticeMaskService).conclude

def execWatchSet (port : Port) (s : State) : Host.Outcome State Fault Refusal :=
  (s.serve port .watchSet watchSetService).conclude

def execWatchClear (port : Port) (s : State) : Host.Outcome State Fault Refusal :=
  (s.serve port .watchClear watchClearService).conclude

def execPassSend (port : Port) (s : State) : Host.Outcome State Fault Refusal :=
  (s.serve port .passSend passSendService).conclude

def execMalformedRequest (port : Port) (s : State) : Host.Outcome State Fault Refusal :=
  (s.serve port .malformed malformedService).conclude

end Sys2Proof.Machine
end

