-- ==== Sys2Proof/Machine/Deadlines.lean ====
section
/-! DEFINITION. What time brings: the tick (R175), every deadline, and the phases of a pulse (R165,
R166).  A deadline that is not reached changes nothing (log 2). -/

namespace Sys2Proof.Machine

namespace Works

/-- Device time advances by one and stops at FFFFFFFFh (R175). -/
def tick (w : Works) : Works := { w with time := min (w.time + 1) Config.timeMax }

/-- The silence deadline of an ACTIVE entry (R38). -/
def silenceExpiry (w : Works) (e : EntryIx) : Works :=
  if w.running ∧ (w.entry e).state = .active ∧ w.reached (w.entry e).silenceDeadline then
    w.becomeSilent e
  else w

/-- The loss deadline of a SILENT entry (R38). -/
def lossExpiry (w : Works) (e : EntryIx) : Works :=
  if w.running ∧ (w.entry e).state = .silent ∧ w.reached (w.entry e).lossDeadline then
    w.becomeLost e
  else w

/-- The thaw deadline of a zone (R109). -/
def thawExpiry (w : Works) (z : ZoneIx) : Works :=
  match (w.zone z).thaw with
  | some d => if w.reached d then w.thawExpired z else w
  | none => w

/-- The alert timer's expiry while the pin is asserted (R117). -/
def alertExpiry (w : Works) : Works :=
  match w.alertTimer with
  | some d => if w.alert && w.reached d then w.sendAlert else w
  | none => w

/-- The drain deadline (R171). -/
def drainExpiry (w : Works) : Works :=
  match w.line.drainDeadline with
  | some d => if w.reached d then w.endDrain else w
  | none => w

/-! ### Pulses -/

/-- The lead ends and the drive begins (R165). -/
def leadEnd (w : Works) : Works :=
  match w.line.pulse with
  | some p => if p.phase = .lead then w.setPhase p .drive else w
  | none => w

/-- The drive ends: the believed position changes, unless a reset has let the pulse run on (R165,
R166). -/
def driveEnd (w : Works) : Works :=
  match w.line.pulse with
  | some p =>
    if p.phase = .drive then
      if p.passed then w.setPhase p .tail else (w.setPhase p .tail).believe p.output p.on
    else w
  | none => w

/-- The tail ends: the end of the pulse, on which the main-line state moves (R165, R166). -/
def tailEnd (w : Works) : Works :=
  match w.line.pulse with
  | some p =>
    if p.phase = .tail then
      if p.passed then w.setPhase p .gap else (w.setPhase p .gap).lineAfterPulse p.output p.on
    else w
  | none => w

/-- The gap ends and the next pending pulse begins (R166). -/
def gapEnd (w : Works) : Works :=
  match w.line.pulse with
  | some p => if p.phase = .gap then (w.modLine fun l => { l with pulse := none }).beginPulse else w
  | none => w

end Works

/-- A work on the row an index names; nothing for an index the part does not have (log 2). -/
def State.onRow {α : Type} (s : State) (ix : Option α) (f : Works → α → Works) : State :=
  match ix with
  | some i => s.onWorks fun w => f w i
  | none => s

/-- An irrigation slot (R119). -/
def irrigationSlot? (n : Nat) : Option SlotIx := if n = 0 then none else slotIx? n

/-- A window close (R77). -/
def State.windowCloses (s : State) (nrs : NrsTurn) : State :=
  match s.closingWindow? with
  | some i => s.closeWindow i nrs
  | none => s

/-- A completion deadline's entry (R129). -/
def State.completes (s : State) (slot zone : Nat) : State :=
  match irrigationSlot? slot, zoneIx? zone with
  | some i, some z => s.onWorks fun w => w.completionDeadline i z
  | _, _ => s

/-! ### The meanings -/

/-- DEVICE_TIME_TICK (R175). -/
def execDeviceTimeTick (s : State) : Host.Outcome State Fault Refusal :=
  (s.onWorks Works.tick).conclude

/-- SILENCE_DEADLINE (R38). -/
def execSilenceDeadline (entry : Nat) (s : State) : Host.Outcome State Fault Refusal :=
  (s.onRow (entryIx? entry) Works.silenceExpiry).conclude

/-- LOSS_DEADLINE (R38). -/
def execLossDeadline (entry : Nat) (s : State) : Host.Outcome State Fault Refusal :=
  (s.onRow (entryIx? entry) Works.lossExpiry).conclude

/-- WINDOW_CLOSE (R77). -/
def execWindowClose (nrs : NrsTurn) (s : State) : Host.Outcome State Fault Refusal :=
  (s.windowCloses nrs).conclude

/-- SHEET_DEADLINE (R59). -/
def execSheetDeadline (ctx : Nat) (s : State) : Host.Outcome State Fault Refusal :=
  (s.onRow (ctxIx? ctx) Works.sheetExpiry).conclude

/-- THAW_DEADLINE (R109). -/
def execThawDeadline (zone : Nat) (s : State) : Host.Outcome State Fault Refusal :=
  (s.onRow (zoneIx? zone) Works.thawExpiry).conclude

/-- ALERT_TIMER_EXPIRY (R117). -/
def execAlertTimerExpiry (s : State) : Host.Outcome State Fault Refusal :=
  (s.onWorks Works.alertExpiry).conclude

/-- GATHER_DEADLINE (R127). -/
def execGatherDeadline (slot : Nat) (s : State) : Host.Outcome State Fault Refusal :=
  (s.onRow (irrigationSlot? slot) Works.gatherDeadline).conclude

/-- COMPLETION_DEADLINE (R129). -/
def execCompletionDeadline (slot zone : Nat) (s : State) : Host.Outcome State Fault Refusal :=
  (s.completes slot zone).conclude

/-- FLOW_CONFIRM_DEADLINE (R144). -/
def execFlowConfirmDeadline (slot : Nat) (s : State) : Host.Outcome State Fault Refusal :=
  (s.onRow (slotIx? slot) Works.flowConfirmDeadline).conclude

/-- ACK_DEADLINE (R152). -/
def execAckDeadline (zone : Nat) (s : State) : Host.Outcome State Fault Refusal :=
  (s.onRow (zoneIx? zone) Works.ackDeadline).conclude

/-- DRAIN_DEADLINE (R171). -/
def execDrainDeadline (s : State) : Host.Outcome State Fault Refusal :=
  (s.onWorks Works.drainExpiry).conclude

/-- PULSE_LEAD_END (R165). -/
def execPulseLeadEnd (s : State) : Host.Outcome State Fault Refusal :=
  (s.onWorks Works.leadEnd).conclude

/-- PULSE_DRIVE_END (R165). -/
def execPulseDriveEnd (s : State) : Host.Outcome State Fault Refusal :=
  (s.onWorks Works.driveEnd).conclude

/-- PULSE_END (R166). -/
def execPulseEnd (s : State) : Host.Outcome State Fault Refusal :=
  (s.onWorks Works.tailEnd).conclude

/-- PULSE_GAP_END (R166). -/
def execPulseGapEnd (s : State) : Host.Outcome State Fault Refusal :=
  (s.onWorks Works.gapEnd).conclude

end Sys2Proof.Machine
end

