-- ==== Sys2Proof/Machine/Resets.lean ====
section
/-! DEFINITION. Power-on, the hard reset and the soft reset: each block's values (R19, R24, R46, R62,
R81, R97, R118, R148, R162, R166, R189). -/

namespace Sys2Proof.Machine

/-- The main line at a reset: a pulse in progress runs on without moving anything, the pending ones
give way to the safe pulses (R166). -/
def Line.afterReset (l : Line) (site : Site) : Line :=
  match l.pulse with
  | some p => { Line.atRest with pulse := some { p with passed := true } }
  | none =>
    { Line.atRest with
      pulse := some { output := .pump, on := false, lengths := site.lengths .pump, phase := .lead,
                      passed := false },
      waiting := [{ output := .master, on := false }, { output := .drain, on := false }] }

/-- An enrolled entry after a soft reset (R46). -/
def Entry.reactivated (n : Entry) (time : Nat) : Entry :=
  { n.clearLatest with state := .active, lastSeq := none, lastHeard := time, frames := 0,
                       muteCloses := 0, badStreak := 0,
                       gen := if n.state = .active then n.gen else n.gen + 1 }

/-- A roster entry after a soft reset; returnTo is where its context sends it (R46). -/
def Entry.softReset (n : Entry) (time : Nat) (returnTo : ReturnState) : Entry :=
  match n.state, returnTo with
  | .free, _ => Entry.free n.gen
  | .reserved, _ => { n with lastHeard := time }
  | .enrolling, .reserved => { n with state := .reserved, lastHeard := time, gen := n.gen + 1 }
  | .enrolling, .free => Entry.free (n.gen + 1)
  | .active, _ => n.reactivated time
  | .silent, _ => n.reactivated time
  | .lost, _ => n.reactivated time
  | .muted, _ => n.reactivated time
  | .quarantined, _ => n.reactivated time

/-- A covered field of the zone stands otherwise than a reset leaves it (R87, R97). -/
def Zone.disturbed (x : Zone) : Bool :=
  x.auto || x.protect || x.frost != .clear || x.valve != .closed || x.runSlot.isSome

/-- A zone record after a soft reset (R97, R118, R148, R162). -/
def Zone.softReset (x : Zone) : Zone :=
  Zone.cleared (if x.disturbed then x.gen + 1 else x.gen)

namespace Works

/-- Where the exchange of an entry returns it; RESERVED for an entry that no context serves. -/
def returnOf (w : Works) (e : EntryIx) : ReturnState :=
  match (w.ctxOf e).bind w.ctx with
  | some x => x.returnTo
  | none => .reserved

/-- The roster after a soft reset (R46). -/
def softRoster (w : Works) : Vector Entry 256 :=
  mapRows (fun e => (w.entry e).softReset w.time (w.returnOf e))
    (⟨allEntries.toArray, by simp [allEntries]⟩ : Vector EntryIx 256)

/-- What the blocks share after a soft reset: tables, mask and device time are kept (R189). -/
def softReset (w : Works) : Works :=
  { Works.powerOn with
    time := w.time, tables := w.tables, mask := w.mask, roster := w.softRoster,
    zones := mapRows Zone.softReset w.zones, line := w.line.afterReset w.site }

/-- What the blocks share after a hard reset (R189). -/
def hardReset (w : Works) : Works := { Works.powerOn with line := w.line.afterReset Site.default }

end Works

namespace State

/-- The part while it is held in reset: URDY is deasserted whatever the counts say, and a pulse that
runs on drives its coil (R22, R166; log 29). -/
def heldInReset (s : State) : State := { s with pins := { s.drivenPins with urdy := false } }

/-- The part during a hard reset, at its hard-reset values; the commands that wait are not the part's
(R22, R189; log 1). -/
def hardReset (s : State) : State :=
  { State.reset with works := s.works.hardReset, pending := s.pending }.heldInReset

/-- The part after a soft reset: watch points are kept and the bank equals the active tables (R6, R19,
R24, R81, R97, R189). -/
def softReset (s : State) : State :=
  { State.reset with
    works := s.works.softReset, bank := s.works.tables, watch := s.watch, pending := s.pending }

/-- The RESET request's reply is the frame in progress on the UART (R24, R177). -/
def resetLeaving (s : State) : Bool :=
  s.resetAnswered &&
    match s.works.upQueue with
    | f :: _ => isResetReply f
    | [] => false

/-- The supply returns, and the reset of power-on has not ended (R189; chapter 10; log 16). -/
def poweredOn (s : State) : State := { State.reset with pending := s.pending }.heldInReset

end State

/-- HARD_RESET, a whole LOW pulse on RESET#: the part in reset, and at the end of the step the end of the
reset, which asserts URDY with both queues empty (R22, R189). -/
def execHardReset (s : State) : Host.Outcome State Fault Refusal := s.hardReset.conclude

/-- SOFT_RESET, when the last byte of the RESET reply has left (R177; log 15). -/
def execSoftReset (s : State) : Host.Outcome State Fault Refusal :=
  (if s.resetLeaving then s.softReset else s).conclude

/-- POWER_ON, to the end of the reset that comes with it (R189). -/
def execPowerOn (s : State) : Host.Outcome State Fault Refusal := s.poweredOn.conclude

end Sys2Proof.Machine
end

