-- ==== Sys2Proof/Machine/FramePath.lean ====
section
/-! DEFINITION. The frame path: arrivals (R1), the classifier (R2 to R14), hand-off (R3), field
transmission (R17, R18), the uplink port (R20, R21, R24), and the blocks taking a frame. -/

namespace Sys2Proof.Machine

namespace State

/-! ### Arrivals -/

/-- An arrival at the receive FIFO (R1). -/
def arrive (s : State) (frame : Bytes) : State :=
  if s.rxFifo.length < Config.rxCapacity then
    { s with rxFifo := s.rxFifo ++ [frame], arrivalAnswer := some .taken }
  else { s.onWorks Works.latchFieldOverrun with arrivalAnswer := some .busy }

/-! ### Watch points -/

/-- A point matches a frame (R4). -/
def watchMatches (p : WatchPoint) (f : FieldFrame) : Bool :=
  p.armed
    && (match p.id with
        | some i => i == f.src || i == f.dst
        | none => true)
    && (match p.kind with
        | some k => k == f.kind
        | none => true)

/-- A hit on a point (R5). -/
def watchHit (f : FieldFrame) (p : WatchPoint) : WatchPoint :=
  if watchMatches p f then
    { p with hits := min (p.hits + 1) 255, armed := !p.oneShot }
  else p

/-- The points a frame hits (R5). -/
def hitPoints (s : State) (f : FieldFrame) : List (Fin 4) :=
  (List.finRange 4).filter fun i => watchMatches s.watch[i] f

/-- The WATCH_HIT notice: a bit for each point hit, then the frame (R5, 11.3). -/
def watchNotice (s : State) (f : FieldFrame) (frame : Bytes) : State :=
  match s.hitPoints f with
  | [] => s
  | i :: is =>
    s.onWorks fun w =>
      w.notice .watchHit (byte i.val) (byte ((i :: is).map fun j => 2 ^ j.val).sum :: frame)

/-- Watch matching, before anything else (R4, R5). -/
def watchFrame (s : State) (f : FieldFrame) (frame : Bytes) : State :=
  { s.watchNotice f frame with watch := mapRows (watchHit f) s.watch }

/-! ### Hand-off -/

def queueOf (s : State) : Block → List HandOff
  | .swu => s.swuQueue
  | .enu => s.enuQueue
  | .vcu => s.vcuQueue
  | .mgu => s.mguQueue

def pushTo (s : State) (b : Block) (h : HandOff) : State :=
  match b with
  | .swu => { s with swuQueue := s.swuQueue ++ [h] }
  | .enu => { s with enuQueue := s.enuQueue ++ [h] }
  | .vcu => { s with vcuQueue := s.vcuQueue ++ [h] }
  | .mgu => { s with mguQueue := s.mguQueue ++ [h] }

/-- A block's queue has a free slot (R3). -/
def hasSlot (s : State) (b : Block) : Bool :=
  decide ((s.queueOf b).length < Config.handOffCapacity)

/-- FCL hands a frame on, or holds it while the queue is full (R3). -/
def handOff (s : State) (b : Block) (h : HandOff) : State :=
  if s.hasSlot b then s.pushTo b h else { s with held := some { block := b, item := h } }

/-- The held frame goes on once its block has a free slot (R3). -/
def handHeld (s : State) : State :=
  match s.held with
  | some h => if s.hasSlot h.block then { s.pushTo h.block h.item with held := none } else s
  | none => s

/-! ### Dispatch -/

/-- A stray: the latch, and for a READING the forwarding that the site may ask for (R12). -/
def stray (s : State) (f : FieldFrame) (frame : Bytes) : State :=
  s.onWorks fun w =>
    if f.kind = kindReading ∧ w.site.forwardStrays then w.latchStray.passUp .stray .none frame
    else w.latchStray

/-- Some reading of the frame is of a class with copy on (R13; log 35). -/
def wantsCopy (w : Works) (f : FieldFrame) : Bool :=
  (frameClasses f.payload).any fun n =>
    match classCode? n with
    | some c => w.tables.classes[c].copy
    | none => false

/-- A READING goes to SWU, copied to the uplink first when a class asks for it (R13). -/
def toSwu (s : State) (f : FieldFrame) (frame : Bytes) (hit : Hit) (role : Option Role) : State :=
  (s.onWorks fun w => if wantsCopy w f then w.passUp .copy hit frame else w).handOff .swu
    { frame := frame, hit := hit, role := role }

/-- A frame that passes the roster gate goes to its block (R10, R11). -/
def passGate (s : State) (f : FieldFrame) (frame : Bytes) (e : EntryIx) (hit : Hit) : State :=
  let g := s.works.gate e f.seq
  let s1 := { s with works := g.1 }
  let role := some (g.1.entry e).role
  if g.2 then
    if f.kind = kindReading then s1.toSwu f frame hit role
    else if f.kind = kindValveAck then
      s1.handOff .vcu { frame := frame, hit := hit, role := role }
    else s1.handOff .mgu { frame := frame, hit := hit, role := role }
  else s1

/-- A READING, VALVE_ACK or MGMT by its lookup result (R10). -/
def dispatchGated (s : State) (f : FieldFrame) (frame : Bytes) (hit : Hit) : State :=
  match hit with
  | .window _ _ _ => if f.kind = kindReading then s.toSwu f frame hit none else s.stray f frame
  | .none => s.stray f frame
  | .roster e st =>
    if st.enrolled then s.passGate f frame e hit
    else if st = .enrolling ∧ f.kind = kindReading then
      s.handOff .enu { frame := frame, hit := hit, role := some (s.works.entry e).role }
    else s.stray f frame

/-- Dispatch by kind (R10). -/
def dispatch (s : State) (f : FieldFrame) (frame : Bytes) (hit : Hit) : State :=
  if f.kind = kindJoin ∨ f.kind = kindSheet then
    s.handOff .enu { frame := frame, hit := hit, role := none }
  else if f.kind = kindReading ∨ f.kind = kindValveAck ∨ f.kind = kindMgmt then
    s.dispatchGated f frame hit
  else s.stray f frame

/-- The destination test and source lookup of RUNNING (R8, R9). -/
def classify (s : State) (f : FieldFrame) (frame : Bytes) : State :=
  if f.dst ≠ s.works.site.controller ∧ f.dst ≠ Config.broadcast then
    s.onWorks fun w => w.passUp .foreign .none frame
  else if s.works.sourceValid f.src then s.dispatch f frame (s.works.lookup f.src)
  else s.onWorks Works.latchStray

/-- A frame with a good check: watch matching, then HALTED transparency or the classifier (R4, R7). -/
def classifyGood (s : State) (f : FieldFrame) (frame : Bytes) : State :=
  let s1 := s.watchFrame f frame
  if s1.works.running then s1.classify f frame
  else s1.onWorks fun w => w.passUp .halted .none frame

/-- FCL's work on one frame (R2, R3). -/
def classifyFrame (s : State) (frame : Bytes) : State :=
  if fieldFrameGood frame then
    match fieldFrame? frame with
    | some f => s.classifyGood f frame
    | none => s.onWorks Works.countFieldError
  else s.onWorks Works.countFieldError

/-- FCL takes the head of the receive FIFO when it has finished with the frame before (R3). -/
def takeFrame (s : State) : State :=
  match s.held, s.rxFifo with
  | none, frame :: rest => { s with rxFifo := rest }.classifyFrame frame
  | _, _ => s

/-! ### Blocks that take a frame -/

/-- ENU takes the head of its queue when the frame is of a kind (R3, R49). -/
def takeEnu (s : State) (kind : Byte) (work : Works → FieldFrame → Hit → Works) : State :=
  match s.enuQueue with
  | h :: rest =>
    match fieldFrame? h.frame with
    | some f =>
      if f.kind = kind then { s with enuQueue := rest }.onWorks fun w => work w f h.hit else s
    | none => s
  | [] => s

/-- VCU takes the head of its queue (R153). -/
def takeVcu (s : State) : State :=
  match s.vcuQueue with
  | h :: rest =>
    match fieldFrame? h.frame with
    | some f => { s with vcuQueue := rest }.onWorks fun w => w.takeAck f.src f.payload
    | none => { s with vcuQueue := rest }
  | [] => s

/-! ### The uplink port -/

/-- A host frame that has ended (R20, R21). -/
def receive (s : State) (frame : Bytes) : State :=
  if s.ready && uplinkFrameGood frame && ((uplinkFrame? frame).map UplinkFrame.kind == some upRequest)
  then
    { s.onWorks (fun w => { w with reserved := w.reserved + 1 }) with
      requests := s.requests ++ [frame] }
  else s.onWorks Works.countUplinkError

/-- The last byte of the frame in progress has left (R24); when it is the RESET reply the soft reset
takes effect (R177; log 15). -/
def frameSent (s : State) : State :=
  if s.resetLeaving then s.softReset
  else s.onWorks fun w => { w with upQueue := w.upQueue.tail }

/-! ### Field transmission -/

/-- The frame the arbiter chooses: the head of URGENT, else of COMMAND, else of PASS (R17). -/
def chooseTx (w : Works) : Option (Bytes × Works) :=
  match w.urgent, w.command, w.pass with
  | f :: rest, _, _ => some (f, { w with urgent := rest })
  | [], f :: rest, _ => some (f, { w with command := rest })
  | [], [], f :: rest => some (f, { w with pass := rest })
  | [], [], [] => none

/-- The arbiter hands a frame to the free transceiver (R17, R18). -/
def transmit (s : State) : State :=
  match s.inFlight, chooseTx s.works with
  | none, some (f, w) =>
    { s with works := w,
             inFlight := some { frame := f, expiry := after s.works.time Config.answerWait } }
  | _, _ => s

/-- An answer ends the transmission in flight; a late one is ignored (R18; log 12). -/
def txAnswered (s : State) (which : AnswerFor) : State :=
  match which with
  | .inFlight => { s with inFlight := none }
  | .ended => s

/-- The answer wait expires (R18). -/
def answerWaitOver (s : State) : State :=
  match s.inFlight with
  | some f => if s.works.reached f.expiry then { s with inFlight := none } else s
  | none => s

end State

/-! ### The meanings -/

open State

/-- FIELD_ARRIVAL (R1). -/
def execFieldArrival (frame : Bytes) (s : State) : Host.Outcome State Fault Refusal :=
  (s.arrive frame).conclude

/-- FCL_TAKE_FRAME (R3). -/
def execFclTakeFrame (s : State) : Host.Outcome State Fault Refusal := s.takeFrame.conclude

/-- FCL_HAND_OFF (R3). -/
def execFclHandOff (s : State) : Host.Outcome State Fault Refusal := s.handHeld.conclude

/-- SWU_TAKE_READING (R63). -/
def execSwuTakeReading (s : State) : Host.Outcome State Fault Refusal := s.takeSwu.conclude

/-- JOIN (R49). -/
def execJoin (s : State) : Host.Outcome State Fault Refusal :=
  (s.takeEnu kindJoin fun w f _ => w.takeJoin f.src f.payload).conclude

/-- SHEET (R55). -/
def execSheet (s : State) : Host.Outcome State Fault Refusal :=
  (s.takeEnu kindSheet fun w f _ => w.takeSheet f.src f.payload).conclude

/-- EARLY_TRAFFIC (R60). -/
def execEarlyTraffic (s : State) : Host.Outcome State Fault Refusal :=
  (s.takeEnu kindReading fun w f hit => w.takeEarly f.src hit).conclude

/-- VALVE_ACK (R153). -/
def execValveAck (s : State) : Host.Outcome State Fault Refusal := s.takeVcu.conclude

/-- UPLINK_FRAME_RECEIVED (R20). -/
def execUplinkFrameReceived (frame : Bytes) (s : State) : Host.Outcome State Fault Refusal :=
  (s.receive frame).conclude

/-- UPLINK_FRAME_SENT (R24). -/
def execUplinkFrameSent (s : State) : Host.Outcome State Fault Refusal := s.frameSent.conclude

/-- FIELD_TX_HAND_OFF (R17). -/
def execFieldTxHandOff (s : State) : Host.Outcome State Fault Refusal := s.transmit.conclude

/-- FIELD_TX_ANSWER: SENT and NOT_SENT alike end the transmission (R18). -/
def execFieldTxAnswer (_answer : TxAnswer) (which : AnswerFor) (s : State) :
    Host.Outcome State Fault Refusal :=
  (s.txAnswered which).conclude

/-- ANSWER_WAIT_EXPIRY (R18). -/
def execAnswerWaitExpiry (s : State) : Host.Outcome State Fault Refusal := s.answerWaitOver.conclude

end Sys2Proof.Machine
end

