-- ==== Sys2Proof/Machine/ServeNodes.lean ====
section
/-! DEFINITION. MGU's requests on roster entries: NODE.READ and NODE.PROBE (R45), and the four
conditional writes (R28 to R32). -/

namespace Sys2Proof.Machine

namespace State

/-! ### Reading -/

/-- A channel record of a NODE.READ reply (R191). -/
def channelBytes (c : Channel) : Bytes :=
  [byte c.cls.val] ++ signed16 c.offset ++ be16 c.scale ++ optSigned c.latest

/-- The sheets accepted, present for an ENROLLING entry (R45, R191). -/
def sheetsOf (w : Works) (e : EntryIx) : Option Byte :=
  if (w.entry e).state = .enrolling then ((w.ctxOf e).bind w.ctx).map fun x => byte x.sheets else none

/-- What NODE.READ returns, in the order of R45 (R191; a channel record is one item, log 33). -/
def nodeItems (w : Works) (e : EntryIx) : List Bytes :=
  let n := w.entry e
  [beId n.id, [n.role.code], [n.state.code], [zoneOrNone n.zone], [byte n.channels.length]]
    ++ n.channels.map channelBytes
    ++ [be16 n.interval, opt8 n.lastSeq, be32 n.lastHeard, [byte n.frames], [byte n.muteCloses],
      [byte n.badStreak], optBytes 8 n.note, genItem n.gen, opt8 (sheetsOf w e)]

/-- NODE.READ (R45). -/
def nodeReadBody (entry : Nat) (s : State) : State × Answer :=
  match entryIx? entry with
  | some e => (s, .done (nodeItems s.works e))
  | none => (s, .refused .range)

/-- What NODE.PROBE returns (R45, 11.1). -/
def probeItems (w : Works) (node : NodeId) : List Bytes :=
  if w.sourceValid node then
    match w.lookup node with
    | .window ix zone cls => [[1], [byte ix.val], [byte zone.val], [byte cls.val]]
    | .roster e st => [[2], [byte e.val], [st.code], [zoneOrNone (w.entry e).zone],
        genItem (w.entry e).gen]
    | .none => [[0]]
  else [[0]]

/-- NODE.PROBE (R45). -/
def nodeProbeBody (node : NodeId) (s : State) : State × Answer :=
  (s, .done (probeItems s.works node))

/-! ### Conditional writes -/

/-- A zone argument: 0 to 39, FFh for none, or out of range (R29, R30, 11.1). -/
def zoneArg? (b : Byte) : Option (Option ZoneIx) :=
  if b = 0xFF then some none else (zoneIx? b.toNat).map some

/-- The entry and generation checks of R28, then the operation's own work. -/
def nodeWrite (s : State) (entry : Nat) (gen : Word16)
    (op : EntryIx → State → Except ResultCode Works) : State × Answer :=
  match entryIx? entry with
  | none => (s, .refused .range)
  | some e =>
    if (s.works.entry e).gen = gen then
      match op e s with
      | .error r => (s, .refused r)
      | .ok w => ({ s with works := w }, .done [genItem (w.entry e).gen])
    else (s, .stale (s.works.entry e).gen)

/-- A non-FREE entry's id may not be reserved, nor one an enabled window covers (R27, R29). -/
def reserveOp (node : NodeId) (role zone : Byte) (e : EntryIx) (s : State) :
    Except ResultCode Works :=
  match role? role.toNat, zoneArg? zone with
  | some r, some z =>
    if !s.works.sourceValid node then .error .range
    else if (s.works.entry e).state ≠ .free then .error .inUse
    else if (List.finRange 4).any fun i => WinRow.covers s.works.tables.windows[i] node then
      .error .windowed
    else if s.works.idTaken node then .error .inUse
    else .ok (s.works.reserveEntry e node r z)
  | _, _ => .error .range

/-- ASSIGN (R30). -/
def assignOp (zone : Byte) (e : EntryIx) (s : State) : Except ResultCode Works :=
  match zoneArg? zone with
  | none => .error .range
  | some z =>
    if (s.works.entry e).state = .free then .error .unknown else .ok (s.works.assignEntry e z)

/-- RELEASE (R31). -/
def releaseOp (e : EntryIx) (s : State) : Except ResultCode Works :=
  if (s.works.entry e).state = .free then .error .unknown else .ok (s.works.releaseEntry e)

/-- RESTORE (R32). -/
def restoreOp (e : EntryIx) (s : State) : Except ResultCode Works :=
  if (s.works.entry e).state = .quarantined ∨ (s.works.entry e).state = .muted then
    .ok (s.works.restoreEntry e)
  else .error .inUse

/-- The arguments of RESERVE. -/
structure ReserveArgs where
  entry : Nat
  gen : Word16
  node : NodeId
  role : Byte
  zone : Byte
  deriving DecidableEq, Repr

/-- RESERVE; an operation code the part does not know gives RANGE (R28, R29). -/
def reserveBody (a : Option ReserveArgs) (s : State) : State × Answer :=
  match a with
  | some a => s.nodeWrite a.entry a.gen (reserveOp a.node a.role a.zone)
  | none => (s, .refused .range)

def assignBody (a : Nat × Word16 × Byte) (s : State) : State × Answer :=
  s.nodeWrite a.1 a.2.1 (assignOp a.2.2)

def releaseBody (a : Nat × Word16) (s : State) : State × Answer := s.nodeWrite a.1 a.2 releaseOp

def restoreBody (a : Nat × Word16) (s : State) : State × Answer := s.nodeWrite a.1 a.2 restoreOp

/-! ### The services -/

def nodeReadService : Service Nat :=
  { pick := fun
      | .nodeRead entry => some entry
      | _ => none,
    fieldMay := fun _ => true, body := nodeReadBody }

def nodeProbeService : Service NodeId :=
  { pick := fun
      | .nodeProbe node => some node
      | _ => none,
    fieldMay := fun _ => true, body := nodeProbeBody }

def reserveService : Service (Option ReserveArgs) :=
  { pick := fun
      | .reserve entry gen node role zone =>
        some (some { entry := entry, gen := gen, node := node, role := role, zone := zone })
      | .nodeWriteUnknown => some none
      | _ => none,
    fieldMay := fun _ => false, body := reserveBody }

def assignService : Service (Nat × Word16 × Byte) :=
  { pick := fun
      | .assign entry gen zone => some (entry, gen, zone)
      | _ => none,
    fieldMay := fun _ => false, body := assignBody }

def releaseService : Service (Nat × Word16) :=
  { pick := fun
      | .release entry gen => some (entry, gen)
      | _ => none,
    fieldMay := fun _ => false, body := releaseBody }

def restoreService : Service (Nat × Word16) :=
  { pick := fun
      | .restore entry gen => some (entry, gen)
      | _ => none,
    fieldMay := fun _ => false, body := restoreBody }

end State

open State

def execNodeRead (port : Port) (s : State) : Host.Outcome State Fault Refusal :=
  (s.serve port .nodeRead nodeReadService).conclude

def execNodeProbe (port : Port) (s : State) : Host.Outcome State Fault Refusal :=
  (s.serve port .nodeProbe nodeProbeService).conclude

def execReserve (port : Port) (s : State) : Host.Outcome State Fault Refusal :=
  (s.serve port .reserve reserveService).conclude

def execAssign (port : Port) (s : State) : Host.Outcome State Fault Refusal :=
  (s.serve port .assign assignService).conclude

def execRelease (port : Port) (s : State) : Host.Outcome State Fault Refusal :=
  (s.serve port .release releaseService).conclude

def execRestore (port : Port) (s : State) : Host.Outcome State Fault Refusal :=
  (s.serve port .restore restoreService).conclude

end Sys2Proof.Machine
end

