-- ==== Sys2Proof/Machine/ServeTables.lean ====
section
/-! DEFINITION. MGU's requests on the staging bank and the active tables (R179 to R182) and on sample
windows (R80). -/

namespace Sys2Proof.Machine

namespace State

/-! ### The staging bank -/

/-- STAGE.WRITE of a row whose table is known: row, pending commit, then field ranges (R179). -/
def stageWriteBody (a : Option (TableName × Nat × Bytes)) (s : State) : State × Answer :=
  match a with
  | none => (s, .refused .range)
  | some (name, row, bs) =>
    if name.rows ≤ row then (s, .refused .range)
    else if s.commitPending then (s, .refused .commitPending)
    else
      match s.bank.putRow name row bs with
      | none => (s, .refused .range)
      | some (b, fields) =>
        match firstFault fields with
        | some i => (s, { result := .range, items := [[byte i]], list := none })
        | none => ({ s with bank := b }, .done [])

/-- STAGE.READ returns the staged row (R179). -/
def stageReadBody (a : Option TableName × Nat) (s : State) : State × Answer :=
  match a.1.bind fun name => s.bank.rowItems name a.2 with
  | some items => (s, .done items)
  | none => (s, .refused .range)

/-- STAGE.COMMIT in HALTED validates and activates at once (R181). -/
def commitNow (s : State) : State × Answer :=
  let r := s.works.commit s.bank
  match r.2 with
  | none => ({ s with works := r.1 }, .done [[0]])
  | some f => (s, .done [[1], [f.reason.code], [f.table.code], [byte f.row]])

/-- STAGE.COMMIT (R181). -/
def stageCommitBody (_ : Unit) (s : State) : State × Answer :=
  if s.commitPending then (s, .refused .commitPending)
  else if s.works.running then ({ s with commitPending := true }, .done [[2]])
  else s.commitNow

/-- STAGE.DISCARD (R182). -/
def stageDiscardBody (_ : Unit) (s : State) : State × Answer :=
  ({ s with bank := s.works.tables, commitPending := false }, .done [[flagByte s.commitPending]])

/-! ### Active rows -/

/-- A WATCH row: armed, id or ANY, kind or ANY, one-shot, hits (R180; log 10). -/
def watchItems (p : WatchPoint) : List Bytes :=
  [[flagByte p.armed], idOrNone p.id, opt8 p.kind, [flagByte p.oneShot], [byte p.hits]]

/-- The items of an active row (R180). -/
def activeItems (s : State) (table : Byte) (row : Nat) : Option (List Bytes) :=
  if table = watchTable then (fin4? row).map fun i => watchItems s.watch[i]
  else (tableName? table).bind fun name => s.works.tables.rowItems name row

/-- TABLE.READ (R180). -/
def tableReadBody (a : Byte × Nat) (s : State) : State × Answer :=
  match s.activeItems a.1 a.2 with
  | some items => (s, .done items)
  | none => (s, .refused .range)

/-! ### Sample windows -/

/-- One zone of a WINDOW.READ reply, 12 bytes (R80, R191). -/
def accBytes (z : ZoneIx) (a : Acc) : Bytes :=
  [byte z.val, byte a.count] ++ signed32 a.sum ++ signed16 (a.min.getD 0) ++ signed16 (a.max.getD 0)
    ++ be16 a.overflow

/-- The fixed part of a WINDOW.READ reply but its zone count; state CLOSED is 1 (R75, R191). -/
def windowItems (i : WinIx) (x : Window) : List Bytes :=
  [[byte i.val], [1], be32 (x.openedAt.getD 0), be16 (x.period.getD 0), be32 (x.closedAt.getD 0)]

/-- The zones from first to first + 15, stopping at 39 (R80). -/
def windowZones (first : Nat) : List ZoneIx :=
  allZones.filter fun z => decide (first ≤ z.val) && decide (z.val ≤ first + 15)

/-- The window a byte names (R80). -/
def winIx? (n : Nat) : Option WinIx := if h : n < 2 then some ⟨n, h⟩ else none

/-- WINDOW.READ (R80). -/
def windowReadBody (a : Nat × Nat) (s : State) : State × Answer :=
  match winIx? a.1, zoneIx? a.2 with
  | some i, some first =>
    if s.windows[i].isOpen then (s, .refused .state)
    else
      (s, { result := .done, items := windowItems i s.windows[i],
            list := some ((windowZones first.val).map fun z => accBytes z s.windows[i].acc[z]) })
  | _, _ => (s, .refused .range)

/-! ### The services -/

def stageWriteService : Service (Option (TableName × Nat × Bytes)) :=
  { pick := fun
      | .stageWrite name row fields => some (some (name, row, fields))
      | .stageWriteUnknown => some none
      | _ => none,
    fieldMay := fun _ => false, body := stageWriteBody }

def stageReadService : Service (Option TableName × Nat) :=
  { pick := fun
      | .stageRead name row => some (name, row)
      | _ => none,
    fieldMay := fun _ => false, body := stageReadBody }

def stageCommitService : Service Unit :=
  { pick := fun q => if q = .stageCommit then some () else none, fieldMay := fun _ => false,
    body := stageCommitBody }

def stageDiscardService : Service Unit :=
  { pick := fun q => if q = .stageDiscard then some () else none, fieldMay := fun _ => false,
    body := stageDiscardBody }

def tableReadService : Service (Byte × Nat) :=
  { pick := fun
      | .tableRead table row => some (table, row)
      | _ => none,
    fieldMay := fun _ => true, body := tableReadBody }

def windowReadService : Service (Nat × Nat) :=
  { pick := fun
      | .windowRead window first => some (window, first)
      | _ => none,
    fieldMay := fun _ => true, body := windowReadBody }

end State

open State

def execStageWrite (port : Port) (s : State) : Host.Outcome State Fault Refusal :=
  (s.serve port .stageWrite stageWriteService).conclude

def execStageRead (port : Port) (s : State) : Host.Outcome State Fault Refusal :=
  (s.serve port .stageRead stageReadService).conclude

def execStageCommit (port : Port) (s : State) : Host.Outcome State Fault Refusal :=
  (s.serve port .stageCommit stageCommitService).conclude

def execStageDiscard (port : Port) (s : State) : Host.Outcome State Fault Refusal :=
  (s.serve port .stageDiscard stageDiscardService).conclude

def execTableRead (port : Port) (s : State) : Host.Outcome State Fault Refusal :=
  (s.serve port .tableRead tableReadService).conclude

def execWindowRead (port : Port) (s : State) : Host.Outcome State Fault Refusal :=
  (s.serve port .windowRead windowReadService).conclude

end Sys2Proof.Machine
end

