-- ==== Sys2Proof/Machine/ServeZones.lean ====
section
/-! DEFINITION. MGU's requests on zones and runs: ZONE.READ (R88), ZONE.CONTROL_IF (R85, R160),
RUN.OPEN (R128), RUN.CANCEL (R137, R138) and RUN.READ (R146). -/

namespace Sys2Proof.Machine

namespace State

/-! ### Zones -/

/-- An outstanding command, or its absence (R88, R149; log 10). -/
def cmdItem (c : Option Cmd) : Bytes :=
  match c with
  | some c =>
    presented true ([c.kind.code, c.number, byte c.attempts] ++ opt32 c.deadline
      ++ [flagByte c.followOn, flagByte c.limited, flagByte c.renewal])
  | none => presented false (List.replicate 11 0)

/-- What ZONE.READ returns (R88), the generation once and last, though R86 lists it with the dynamic part as
well (log 10). -/
def zoneItems (w : Works) (z : ZoneIx) : List Bytes :=
  let x := w.zone z
  (w.cfg z).items
    ++ [[flagByte x.auto], [flagByte x.protect], optSigned x.estimate, [x.quality.code],
      [byte x.empty], [x.frost.code], [byte x.confirm], opt32 x.thaw, optFigure x.dry,
      optFigure x.wet, [flagByte x.blind], [x.valve.code], cmdItem x.cmd,
      opt8 (x.runSlot.map fun s => byte s.val), genItem x.gen]

/-- ZONE.READ (R88). -/
def zoneReadBody (zone : Nat) (s : State) : State × Answer :=
  match zoneIx? zone with
  | some z => (s, .done (zoneItems s.works z))
  | none => (s, .refused .range)

/-- A control argument: off, on, or unchanged (R85, 11.4). -/
def controlArg? (b : Byte) : Option (Option Bool) :=
  if b = 0x00 then some (some false)
  else if b = 0x01 then some (some true)
  else if b = 0x02 then some none
  else none

/-- The two controls are written; the generation advances if either changes (R85, R87). -/
def writeControls (w : Works) (z : ZoneIx) (auto protection : Option Bool) : Works :=
  let a := auto.getD (w.zone z).auto
  let p := protection.getD (w.zone z).protect
  if a = (w.zone z).auto ∧ p = (w.zone z).protect then w
  else (w.modZone z fun x => { x with auto := a, protect := p }).touch z

/-- FRW acts on a protection control that has changed (R85, R112, R113). -/
def protectionChanged (w : Works) (z : ZoneIx) (old : Bool) : Works :=
  match old, (w.zone z).protect with
  | true, false => w.protectionOff z fun w => w.withdraw z
  | false, true => w.protectionPossible z .control
  | _, _ => w

/-- SET carried out (R85). -/
def setControls (w : Works) (z : ZoneIx) (auto protection : Option Bool) : Works :=
  protectionChanged (writeControls w z auto protection) z (w.zone z).protect

/-- The arguments of ZONE.CONTROL_IF SET. -/
structure ControlArgs where
  zone : Nat
  gen : Word16
  auto : Byte
  protection : Byte
  deriving DecidableEq, Repr

/-- ZONE.CONTROL_IF SET; an operation code the part does not know gives RANGE (R85). -/
def zoneControlBody (a : Option ControlArgs) (s : State) : State × Answer :=
  match a with
  | none => (s, .refused .range)
  | some a =>
    match zoneIx? a.zone, controlArg? a.auto, controlArg? a.protection with
    | some z, some auto, some protection =>
      if (s.works.zone z).gen = a.gen then
        let w := setControls s.works z auto protection
        ({ s with works := w }, .done [genItem (w.zone z).gen])
      else (s, .stale (s.works.zone z).gen)
    | _, _, _ => (s, .refused .range)

/-- ZONE.CONTROL_IF CLEAR_VALVE (R85, R160). -/
def clearValveBody (a : Nat × Word16) (s : State) : State × Answer :=
  match zoneIx? a.1 with
  | none => (s, .refused .range)
  | some z =>
    if (s.works.zone z).gen ≠ a.2 then (s, .stale (s.works.zone z).gen)
    else if (s.works.zone z).valve ≠ .stuck then (s, .refused .inUse)
    else
      let w := s.works.clearValve z
      ({ s with works := w }, .done [genItem (w.zone z).gen])

/-! ### RUN.OPEN -/

/-- Zone indices below 40, all different, one to eight of them (R128 step 2). -/
def runZones? (items : List (Nat × Nat)) : Option (List (ZoneIx × Nat)) :=
  let zs := items.filterMap fun i => (zoneIx? i.1).map fun z => (z, i.2)
  if zs.length = items.length ∧ 1 ≤ items.length ∧ items.length ≤ Config.irrigationEntries
      ∧ (items.map Prod.fst).Nodup then some zs
  else none

/-- The target of a zone: as given, or computed from its estimate (R128). -/
def runTarget? (w : Works) (z : ZoneIx) (given : Nat) : Option Nat :=
  if given = 0 then
    match (w.zone z).estimate with
    | some e => if e < (w.cfg z).full then some (w.autoTarget z e) else none
    | none => none
  else some given

/-- The zone takes part in nothing that keeps it from a run (R128 step 3). -/
def runFree (w : Works) (z : ZoneIx) : Bool :=
  ((w.zone z).frost == .clear || (w.zone z).frost == .watch) && (w.zone z).valve == .closed
    && !w.hasActiveEntry z

/-- One zone of the list (R128 step 3). -/
def checkRunZone (w : Works) (i : ZoneIx × Nat) : Except ResultCode (ZoneIx × Nat) :=
  if (w.cfg i.1).inUse && (w.cfg i.1).valveNode.isSome then
    match runTarget? w i.1 i.2 with
    | none => .error .range
    | some t => if runFree w i.1 then .ok (i.1, t) else .error .inUse
  else .error .range

/-- The zones in list order, stopping at the first that fails (R128 step 3). -/
def checkRunZones (w : Works) : List (ZoneIx × Nat) → Except ResultCode (List (ZoneIx × Nat))
  | [] => .ok []
  | i :: is =>
    match checkRunZone w i with
    | .error r => .error r
    | .ok x =>
      match checkRunZones w is with
      | .error r => .error r
      | .ok xs => .ok (x :: xs)

/-- RUN.OPEN of zones that passed steps 1 to 3 (R128 steps 4 and 5). -/
def openChecked (s : State) (items : List (ZoneIx × Nat)) : State × Answer :=
  if s.works.site.capacity < s.works.demandSum (items.map Prod.fst) then (s, .refused .range)
  else
    match s.works.newSlot? with
    | none => (s, .refused .noRoom)
    | some slot =>
      (s.onWorks fun w => w.openRun slot items,
        .done [[byte slot.val], be16 s.works.runNumber.toNat])

/-- RUN.OPEN (R128). -/
def runOpenBody (items : List (Nat × Nat)) (s : State) : State × Answer :=
  if !s.works.running then (s, .refused .state)
  else
    match runZones? items with
    | none => (s, .refused .range)
    | some zs =>
      match checkRunZones s.works zs with
      | .error r => (s, .refused r)
      | .ok checked => s.openChecked checked

/-! ### RUN.CANCEL -/

/-- The live run a slot and a number name (R137, R138). -/
def namedRun? (w : Works) (slot : SlotIx) (number : Word16) : Option Run :=
  match w.run slot with
  | some r => if r.live ∧ r.number = number then some r else none
  | none => none

/-- The state of the run in slot 0. -/
def frostRunState (w : Works) : Byte :=
  match w.run 0 with
  | some r => r.state.code
  | none => 0

/-- RUN.CANCEL (R137, R138). -/
def runCancelBody (a : Nat × Word16) (s : State) : State × Answer :=
  if !s.works.running then (s, .refused .state)
  else
    match slotIx? a.1 with
    | none => (s, .refused .range)
    | some slot =>
      match namedRun? s.works slot a.2 with
      | none => (s, .refused .unknown)
      | some r =>
        if slot = 0 then
          let t := s.onWorks Works.cancelFrost
          (t, .done [[frostRunState t.works]])
        else (s.onWorks fun w => w.cancelIrrigation slot r, .done [])

/-! ### RUN.READ -/

/-- An entry with every field of R121, absent fields marked (R146; log 10). -/
def entryBytes (e : RunEntry) : Bytes :=
  [byte e.zone.val, e.state.code] ++ opt16 e.target ++ opt16 (e.target.map fun _ => e.delivered)
    ++ opt32 e.openSince ++ opt32 e.completion ++ opt8 (e.closeCause.map EntryCause.code)
    ++ opt8 (e.faultReason.map FaultReason.code)
    ++ opt8 (if e.target.isNone then some (flagByte e.shortNoted) else none)

/-- The run's own items (R146). -/
def runItems (w : Works) (slot : SlotIx) (r : Run) : List Bytes :=
  [[byte slot.val], be16 r.number.toNat, [r.kind.code], [r.origin.code], [r.state.code],
    be32 r.created, opt32 r.gatherDeadline, opt32 r.flowDeadline,
    opt8 (r.closeCause.map RunCause.code), [byte r.entries.length], be32 (w.demandTotal r)]

/-- RUN.READ (R146). -/
def runReadBody (a : Nat × Nat) (s : State) : State × Answer :=
  match slotIx? a.1 with
  | none => (s, .refused .range)
  | some slot =>
    if 40 ≤ a.2 then (s, .refused .range)
    else
      match s.works.run slot with
      | none => (s, .refused .unknown)
      | some r =>
        (s, { result := .done, items := runItems s.works slot r,
              list := some (((r.entries.drop a.2).take 8).map entryBytes) })

/-! ### The services -/

def zoneReadService : Service Nat :=
  { pick := fun
      | .zoneRead zone => some zone
      | _ => none,
    fieldMay := fun _ => true, body := zoneReadBody }

def zoneControlService : Service (Option ControlArgs) :=
  { pick := fun
      | .zoneControlSet zone gen auto protection =>
        some (some { zone := zone, gen := gen, auto := auto, protection := protection })
      | .zoneControlUnknown => some none
      | _ => none,
    fieldMay := fun _ => false, body := zoneControlBody }

def clearValveService : Service (Nat × Word16) :=
  { pick := fun
      | .clearValve zone gen => some (zone, gen)
      | _ => none,
    fieldMay := fun _ => false, body := clearValveBody }

def runOpenService : Service (List (Nat × Nat)) :=
  { pick := fun
      | .runOpen items => some items
      | _ => none,
    fieldMay := fun _ => true, body := runOpenBody }

/-- FIELD authority may cancel irrigation runs, not slot 0 (R138, R172). -/
def runCancelService : Service (Nat × Word16) :=
  { pick := fun
      | .runCancel slot number => some (slot, number)
      | _ => none,
    fieldMay := fun a => a.1 != 0, body := runCancelBody }

def runReadService : Service (Nat × Nat) :=
  { pick := fun
      | .runRead slot first => some (slot, first)
      | _ => none,
    fieldMay := fun _ => true, body := runReadBody }

end State

open State

def execZoneRead (port : Port) (s : State) : Host.Outcome State Fault Refusal :=
  (s.serve port .zoneRead zoneReadService).conclude

def execZoneControlIfSet (port : Port) (s : State) : Host.Outcome State Fault Refusal :=
  (s.serve port .zoneControlSet zoneControlService).conclude

def execClearValve (port : Port) (s : State) : Host.Outcome State Fault Refusal :=
  (s.serve port .clearValve clearValveService).conclude

def execRunOpen (port : Port) (s : State) : Host.Outcome State Fault Refusal :=
  (s.serve port .runOpen runOpenService).conclude

def execRunCancel (port : Port) (s : State) : Host.Outcome State Fault Refusal :=
  (s.serve port .runCancel runCancelService).conclude

def execRunRead (port : Port) (s : State) : Host.Outcome State Fault Refusal :=
  (s.serve port .runRead runReadService).conclude

end Sys2Proof.Machine
end

