-- ==== Sys2Proof/Machine/Dispatch.lean ====
section
/-! DEFINITION. The meaning of each command: one arm for each row of the table. -/

namespace Sys2Proof.Machine

def exec (i : Instr) (s : State) : Host.Outcome State Fault Refusal :=
  match i with
  | .hardReset => Sys2Proof.Machine.execHardReset s
  | .softReset => Sys2Proof.Machine.execSoftReset s
  | .fieldArrival frame => Sys2Proof.Machine.execFieldArrival frame s
  | .fclTakeFrame => Sys2Proof.Machine.execFclTakeFrame s
  | .fclHandOff => Sys2Proof.Machine.execFclHandOff s
  | .swuTakeReading => Sys2Proof.Machine.execSwuTakeReading s
  | .join => Sys2Proof.Machine.execJoin s
  | .sheet => Sys2Proof.Machine.execSheet s
  | .earlyTraffic => Sys2Proof.Machine.execEarlyTraffic s
  | .valveAck => Sys2Proof.Machine.execValveAck s
  | .uplinkFrameReceived frame => Sys2Proof.Machine.execUplinkFrameReceived frame s
  | .uplinkFrameSent => Sys2Proof.Machine.execUplinkFrameSent s
  | .fieldTxHandOff => Sys2Proof.Machine.execFieldTxHandOff s
  | .fieldTxAnswer answer which => Sys2Proof.Machine.execFieldTxAnswer answer which s
  | .answerWaitExpiry => Sys2Proof.Machine.execAnswerWaitExpiry s
  | .deviceTimeTick => Sys2Proof.Machine.execDeviceTimeTick s
  | .silenceDeadline entry => Sys2Proof.Machine.execSilenceDeadline entry s
  | .lossDeadline entry => Sys2Proof.Machine.execLossDeadline entry s
  | .windowClose nrs => Sys2Proof.Machine.execWindowClose nrs s
  | .sheetDeadline ctx => Sys2Proof.Machine.execSheetDeadline ctx s
  | .thawDeadline zone => Sys2Proof.Machine.execThawDeadline zone s
  | .alertTimerExpiry => Sys2Proof.Machine.execAlertTimerExpiry s
  | .gatherDeadline slot => Sys2Proof.Machine.execGatherDeadline slot s
  | .completionDeadline slot zone => Sys2Proof.Machine.execCompletionDeadline slot zone s
  | .flowConfirmDeadline slot => Sys2Proof.Machine.execFlowConfirmDeadline slot s
  | .ackDeadline zone => Sys2Proof.Machine.execAckDeadline zone s
  | .drainDeadline => Sys2Proof.Machine.execDrainDeadline s
  | .pulseLeadEnd => Sys2Proof.Machine.execPulseLeadEnd s
  | .pulseDriveEnd => Sys2Proof.Machine.execPulseDriveEnd s
  | .pulseEnd => Sys2Proof.Machine.execPulseEnd s
  | .pulseGapEnd => Sys2Proof.Machine.execPulseGapEnd s
  | .timeRead port => Sys2Proof.Machine.execTimeRead port s
  | .timeSet port => Sys2Proof.Machine.execTimeSet port s
  | .start port => Sys2Proof.Machine.execStart port s
  | .reset port => Sys2Proof.Machine.execReset port s
  | .stageWrite port => Sys2Proof.Machine.execStageWrite port s
  | .stageRead port => Sys2Proof.Machine.execStageRead port s
  | .stageCommit port => Sys2Proof.Machine.execStageCommit port s
  | .stageDiscard port => Sys2Proof.Machine.execStageDiscard port s
  | .tableRead port => Sys2Proof.Machine.execTableRead port s
  | .nodeRead port => Sys2Proof.Machine.execNodeRead port s
  | .nodeProbe port => Sys2Proof.Machine.execNodeProbe port s
  | .reserve port => Sys2Proof.Machine.execReserve port s
  | .assign port => Sys2Proof.Machine.execAssign port s
  | .release port => Sys2Proof.Machine.execRelease port s
  | .restore port => Sys2Proof.Machine.execRestore port s
  | .zoneRead port => Sys2Proof.Machine.execZoneRead port s
  | .zoneControlIfSet port => Sys2Proof.Machine.execZoneControlIfSet port s
  | .clearValve port => Sys2Proof.Machine.execClearValve port s
  | .runOpen port => Sys2Proof.Machine.execRunOpen port s
  | .runCancel port => Sys2Proof.Machine.execRunCancel port s
  | .runRead port => Sys2Proof.Machine.execRunRead port s
  | .windowRead port => Sys2Proof.Machine.execWindowRead port s
  | .passSend port => Sys2Proof.Machine.execPassSend port s
  | .watchSet port => Sys2Proof.Machine.execWatchSet port s
  | .watchClear port => Sys2Proof.Machine.execWatchClear port s
  | .noticeMask port => Sys2Proof.Machine.execNoticeMask port s
  | .statusRead port => Sys2Proof.Machine.execStatusRead port s
  | .malformedRequest port => Sys2Proof.Machine.execMalformedRequest port s
  | .powerOn => Sys2Proof.Machine.execPowerOn s

end Sys2Proof.Machine
end

