-- ==== Sys2Proof/Safety.lean ====
section
/-! DEFINITION. What is claimed of every state the part passes through: the invariants that a step keeps,
each with the rule it comes from, and the frame of a command that works on the shared records alone. -/

namespace Sys2Proof.Machine

/-- The pins are what the state drives (R22, R165). -/
def State.PinsFollow (s : State) : Prop := s.pins = s.drivenPins

/-- In RUNNING exactly one sample window is OPEN, in HALTED none is (R75 to R77). -/
def State.WindowsMatch (s : State) : Prop :=
  match s.works.device with
  | .running => s.windows[0].isOpen ≠ s.windows[1].isOpen
  | .halted => s.windows[0].isOpen = false ∧ s.windows[1].isOpen = false

/-- Every queue is within its capacity, and each waiting host request holds one reserved slot (R1, R3,
R15, R21, R22). -/
structure State.QueuesWithin (s : State) : Prop where
  rxFifo : s.rxFifo.length ≤ Config.rxCapacity
  swu : s.swuQueue.length ≤ Config.handOffCapacity
  enu : s.enuQueue.length ≤ Config.handOffCapacity
  vcu : s.vcuQueue.length ≤ Config.handOffCapacity
  mgu : s.mguQueue.length ≤ Config.handOffCapacity
  requests : s.requests.length ≤ Config.requestCapacity
  reserved : s.works.reserved = s.requests.length
  uplink : s.works.upQueue.length + s.works.reserved ≤ Config.uplinkCapacity
  urgent : s.works.urgent.length ≤ Config.urgentCapacity
  command : s.works.command.length ≤ Config.commandCapacity
  pass : s.works.pass.length ≤ Config.passCapacity

/-- RDP has no pass owed and no close in hand (R122, R124; log 17). -/
def Works.Idle (w : Works) : Prop := w.offer = false ∧ w.closes = []

/-- Between steps no block has work in hand (log 6, log 17). -/
def State.NoWorkInHand (s : State) : Prop := s.works.Idle ∧ s.works.touched = []

/-- Counts that saturate are within their ranges (R2, R5, R20, R70, R175). -/
structure State.CountsWithin (s : State) : Prop where
  time : s.works.time ≤ Config.timeMax
  fieldErrors : s.works.fieldErrors ≤ Config.errorCountMax
  uplinkErrors : s.works.uplinkErrors ≤ Config.errorCountMax
  hits : ∀ i : Fin 4, s.watch[i].hits ≤ 255
  counts : ∀ (i : WinIx) (z : ZoneIx), s.windows[i].acc[z].count ≤ Config.sampleCap
  overflows : ∀ (i : WinIx) (z : ZoneIx), s.windows[i].acc[z].overflow ≤ 65535

/-- An outstanding OPEN that is no renewal belongs to a valve in OPENING (R150, R154, R158). -/
def Zone.commandFits (x : Zone) : Prop :=
  match x.cmd with
  | some c => c.kind = .openValve → c.renewal = false → x.valve = .opening
  | none => True

/-- Admitted demand does not exceed the pump capacity, and commands fit their valves (R122, R149). -/
structure Works.Lawful (w : Works) : Prop where
  commands : ∀ z, (w.zone z).commandFits
  capacity : w.admittedDemand ≤ w.site.capacity

/-- No run has number 0, and none will be given it (R119). -/
def Works.RunsNumbered (w : Works) : Prop :=
  w.runNumber ≠ 0 ∧ ∀ i r, w.run i = some r → r.number ≠ 0

/-- What a command that works on the shared records alone leaves as it was: the queues into and inside
the part, the windows, the bank, the watch points and the commands that wait. -/
structure State.SameAround (s t : State) : Prop where
  rxFifo : t.rxFifo = s.rxFifo
  arrivalAnswer : t.arrivalAnswer = s.arrivalAnswer
  held : t.held = s.held
  swuQueue : t.swuQueue = s.swuQueue
  enuQueue : t.enuQueue = s.enuQueue
  vcuQueue : t.vcuQueue = s.vcuQueue
  mguQueue : t.mguQueue = s.mguQueue
  inFlight : t.inFlight = s.inFlight
  requests : t.requests = s.requests
  resetAnswered : t.resetAnswered = s.resetAnswered
  windows : t.windows = s.windows
  folds : t.folds = s.folds
  bank : t.bank = s.bank
  commitPending : t.commitPending = s.commitPending
  watch : t.watch = s.watch
  pending : t.pending = s.pending

/-- The shared records that neither a zone's, a run's nor a node's business changes: the device state,
time, the tables in force, the notice mask, reservations, the error counts and the PASS queue. -/
structure Works.SameBase (w v : Works) : Prop where
  device : v.device = w.device
  time : v.time = w.time
  tables : v.tables = w.tables
  mask : v.mask = w.mask
  reserved : v.reserved = w.reserved
  fieldErrors : v.fieldErrors = w.fieldErrors
  uplinkErrors : v.uplinkErrors = w.uplinkErrors
  pass : v.pass = w.pass

/-- An entry, and no other, has become n; the contexts stand. -/
def Works.OnlyEntry (w v : Works) (e : EntryIx) (n : Entry) : Prop :=
  v.entry e = n ∧ (∀ x, x ≠ e → v.entry x = w.entry x) ∧ v.ctxs = w.ctxs

/-- A context, and no other, has become x. -/
def Works.OnlyCtx (w v : Works) (c : CtxIx) (x : Option Ctx) : Prop :=
  v.ctx c = x ∧ ∀ d, d ≠ c → v.ctx d = w.ctx d

/-- The request t stands at the head of the port with this code and these arguments, and its port and
role give it the authority a request needs (R172, R173). -/
structure State.Asks (s : State) (port : Port) (t : Taken) (code : Byte) (args : Bytes)
    (fieldMay : Bool) : Prop where
  next : s.nextRequest port = some t
  code : t.code = code
  args : t.args = args
  authority : port = .uplink ∨ (t.role = some .service ∧ fieldMay = true)

/-- s once the request has left its queue, with its reply sent and the step ended (R21, R174). -/
def State.replied (s : State) (port : Port) (t : Taken) (a : Answer) : State :=
  ((s.dropRequest port).answer port t a).finish

/-- The same, after the request's work on the shared records. -/
def State.repliedAfter (s : State) (port : Port) (t : Taken) (f : Works → Works) (a : Answer) : State :=
  (((s.dropRequest port).onWorks f).answer port t a).finish

/-- The frame at the head of the receive FIFO, which FCL is free to take, with its fields and a good
check (R2, R3). -/
structure State.FclReady (s : State) (frame : Bytes) (rest : List Bytes) (f : FieldFrame) : Prop where
  free : s.held = none
  head : s.rxFifo = frame :: rest
  good : fieldFrameGood frame = true
  fields : fieldFrame? frame = some f

/-- No watch point is armed (R4). -/
def State.Unwatched (s : State) : Prop := ∀ i : Fin 4, s.watch[i].armed = false

/-- The frame FCL is free to take is for the part: RUNNING, the controller id or FFFFFFh as destination, and
no watch point armed (R4, R8). -/
structure State.ForPart (s : State) (frame : Bytes) (rest : List Bytes) (f : FieldFrame) : Prop where
  ready : s.FclReady frame rest f
  unwatched : s.Unwatched
  running : s.works.device = .running
  dst : f.dst = s.works.site.controller ∨ f.dst = 0xFFFFFF#24

/-- SWU's next frame is a roster-path READING with these readings, and its entry still serves its source
(R63, R64). -/
structure State.RosterFrame (s : State) (h : HandOff) (rest : List HandOff) (f : FieldFrame)
    (e : EntryIx) (st : NodeState) (rs : List Reading) : Prop where
  head : s.swuQueue = h :: rest
  hit : h.hit = .roster e st
  fields : fieldFrame? h.frame = some f
  readings : readingList? f.payload = some rs
  enrolled : (s.works.entry e).state.enrolled = true
  id : (s.works.entry e).id = f.src

/-- The zone's OPENING entry x stands in the run r of slot i, the frost run or an irrigation run in OPENING
or FLOWING; its valve is OPENING and RDP has nothing in hand (R126, R129, R134). -/
structure State.Opens (s : State) (z : ZoneIx) (i : SlotIx) (r : Run) (x : RunEntry) : Prop where
  idle : s.NoWorkInHand
  found : s.works.findEntry z (fun e => e == .opening) = some (i, x)
  run : s.works.run i = some r
  state : i = 0 ∨ r.state = .opening ∨ r.state = .flowing
  valve : (s.works.zone z).valve = .opening

/-- The zone's entry in the run of slot i is FAULTED with the reason q, its valve CLOSING under a new CLOSE,
and a zone in WARNING, PROTECTING or THAWING whose frost entry it was is UNPROTECTED (R111, R139, R155). -/
structure State.OpenFailed (s t : State) (z : ZoneIx) (i : SlotIx) (r : Run) (q : FaultReason) : Prop where
  entries : ∃ r', t.works.run i = some r' ∧ r'.entries = r.entries.map fun x => if x.zone = z then
    { x with state := .faulted, faultReason := some q, openSince := none, completion := none,
             closeCause := none } else x
  valve : (t.works.zone z).valve = .closing
  close : ∃ k, (t.works.zone z).cmd = some k ∧ k.kind = .closeValve ∧ k.number = s.works.cmdNumber
    ∧ k.attempts = 1
  frost : i = 0 → (t.works.zone z).frost =
    if (s.works.zone z).frost = .clear ∨ (s.works.zone z).frost = .watch then (s.works.zone z).frost
    else .unprotected
  others : ∀ y, y ≠ z → (t.works.zone y).valve = (s.works.zone y).valve

end Sys2Proof.Machine
end

