-- ==== Sys2Proof/Certificates/Slice0/Obligations.lean ====
section
/-! DEFINITION. The statements given to the provers. -/

section

open Sys2Proof Sys2Proof.Machine

/-! ### Steps and invariants -/

/-- A step is the front command carried out on the rest of the queue; with no command waiting nothing
happens (the model's choices, log 1). -/
def Obligations.StepRunsFrontCommand : Prop :=
  (∀ (c : Instr) (s : State), step (s.withCommand c) = exec c s)
    ∧ (∀ (c : Instr) (rest : List Instr) (s : State), s.pending = c :: rest →
        step s = exec c { s with pending := rest })
    ∧ ∀ s : State, s.pending = [] → step s = .next s

/-- Every command answers a next state, leaves the commands that wait, and ends with the pins driven
and no generation still marked. -/
def Obligations.EveryCommandCompletes : Prop :=
  ∀ (c : Instr) (s : State), ∃ t, exec c s = .next t ∧ t.pending = s.pending ∧ t.PinsFollow
    ∧ t.works.touched = []

def Obligations.WindowsMatchEveryStep : Prop :=
  ∀ s t : State, s.WindowsMatch → step s = .next t → t.WindowsMatch

def Obligations.QueuesWithinEveryStep : Prop :=
  ∀ s t : State, s.QueuesWithin → step s = .next t → t.QueuesWithin

def Obligations.NoWorkInHandEveryStep : Prop :=
  ∀ s t : State, s.NoWorkInHand → step s = .next t → t.NoWorkInHand

def Obligations.CountsWithinEveryStep : Prop :=
  ∀ s t : State, s.CountsWithin → step s = .next t → t.CountsWithin

/-- Admitted demand never exceeds the pump capacity in force. -/
def Obligations.CapacityLawEveryStep : Prop :=
  ∀ s t : State, s.works.Lawful → step s = .next t → t.works.Lawful

/-- 0 is never a run number. -/
def Obligations.RunsNumberedEveryStep : Prop :=
  ∀ s t : State, s.works.RunsNumbered → step s = .next t → t.works.RunsNumbered

def Obligations.InvariantsHoldAtReset : Prop :=
  State.reset.PinsFollow ∧ State.reset.WindowsMatch ∧ State.reset.QueuesWithin
    ∧ State.reset.NoWorkInHand ∧ State.reset.CountsWithin ∧ State.reset.works.Lawful
    ∧ State.reset.works.RunsNumbered

/-! ### Resets -/

/-- What a reset leaves, field by field, where the manual gives the value. -/
def Obligations.ResetValues : Prop :=
  State.reset.works.device = .halted ∧ State.reset.works.time = 0
    ∧ State.reset.works.tables = Tables.default ∧ State.reset.bank = Tables.default
    ∧ State.reset.commitPending = false ∧ State.reset.works.latches = Latches.clear
    ∧ State.reset.works.gapPending = false ∧ State.reset.works.txSeq = 0
    ∧ State.reset.works.runNumber = 1 ∧ State.reset.works.alert = false
    ∧ State.reset.pins.urdy = true
    ∧ (∀ k : Fin 18, State.reset.works.mask[k] = true)
    ∧ (∀ e, State.reset.works.entry e = Entry.free 0)
    ∧ (∀ z, State.reset.works.zone z = Zone.cleared 0)
    ∧ (∀ i, State.reset.works.run i = none) ∧ (∀ c, State.reset.works.ctx c = none)
    ∧ (∀ i : WinIx, State.reset.windows[i] = Window.cleared)
    ∧ (∀ i : Fin 4, State.reset.watch[i] = WatchPoint.cleared)

/-- A hard reset and power-on: URDY is LOW while the reset lasts and HIGH once it has ended; everything is
at its reset value, but that a pulse under way at a hard reset runs on, marked, with the three safe
pulses behind it.  That the commands that wait are kept, and that no pulse runs on over power-on, is the
model's choice (log 1, log 16). -/
def Obligations.HardResetAndPowerOn : Prop :=
  ∀ s : State,
    s.hardReset.pins.urdy = false ∧ s.poweredOn.pins.urdy = false
      ∧ (∀ t, exec .hardReset s = .next t ∨ exec .powerOn s = .next t → t.pins.urdy = true)
      ∧ exec .powerOn s = .next { State.reset with pending := s.pending }
      ∧ (s.works.line.pulse = none →
          exec .hardReset s = .next { State.reset with pending := s.pending })
      ∧ ∀ p, s.works.line.pulse = some p →
          exec .hardReset s = .next (State.finish
            { State.reset with
              works := { State.reset.works with
                line := { Line.atRest with pulse := some { p with passed := true } } },
              pending := s.pending })

/-- The soft reset, when the RESET reply has left: what it keeps and what it clears.  That the commands
SOFT_RESET and UPLINK_FRAME_SENT of that reply both perform it, and that the reply is known by its kind,
code and result, is the model's reading (DEDUCED, log 15). -/
def Obligations.SoftResetKeepsAndClears : Prop :=
  ∀ (s : State) (reply : Bytes) (rest : List Bytes), s.resetAnswered = true →
    s.works.upQueue = reply :: rest → isResetReply reply = true →
    ∃ t, exec .softReset s = .next t ∧ exec .uplinkFrameSent s = .next t
      ∧ t.works.device = .halted ∧ t.works.time = s.works.time
      ∧ t.works.tables = s.works.tables ∧ t.works.mask = s.works.mask
      ∧ t.bank = s.works.tables ∧ t.commitPending = false ∧ t.watch = s.watch
      ∧ t.works.upQueue = [] ∧ t.works.reserved = 0 ∧ t.requests = [] ∧ t.rxFifo = []
      ∧ t.swuQueue = [] ∧ t.enuQueue = [] ∧ t.vcuQueue = [] ∧ t.mguQueue = []
      ∧ t.works.urgent = [] ∧ t.works.command = [] ∧ t.works.pass = [] ∧ t.works.txSeq = 0
      ∧ t.inFlight = none ∧ t.held = none ∧ t.resetAnswered = false
      ∧ t.works.latches = Latches.clear ∧ t.works.fieldErrors = 0 ∧ t.works.uplinkErrors = 0
      ∧ t.works.gapPending = false ∧ t.works.runNumber = 1 ∧ t.works.alert = false
      ∧ t.works.alertTimer = none ∧ t.pending = s.pending
      ∧ (∀ i, t.works.run i = none) ∧ (∀ c, t.works.ctx c = none)
      ∧ (∀ i : WinIx, t.windows[i] = Window.cleared ∧ t.folds[i] = none)
      ∧ (∀ z, t.works.zone z = Zone.cleared
          (if (s.works.zone z).auto = true ∨ (s.works.zone z).protect = true
              ∨ (s.works.zone z).frost ≠ .clear ∨ (s.works.zone z).valve ≠ .closed
              ∨ (s.works.zone z).runSlot ≠ none
            then (s.works.zone z).gen + 1 else (s.works.zone z).gen))
      ∧ (∀ p, s.works.line.pulse = some p →
          t.works.line = { Line.atRest with pulse := some { p with passed := true } })
      ∧ (s.works.line.pulse = none →
          t.works.line = { Line.atRest with
            pulse := some { output := .pump, on := false, lengths := s.works.site.pump,
                            phase := .lead, passed := false },
            waiting := [{ output := .master, on := false }, { output := .drain, on := false }] })
      ∧ (∀ e, (s.works.entry e).state.enrolled = true →
          t.works.entry e = { s.works.entry e with
            state := .active, lastHeard := s.works.time, lastSeq := none, frames := 0,
            muteCloses := 0, badStreak := 0,
            channels := (s.works.entry e).channels.map fun c => { c with latest := none },
            gen := if (s.works.entry e).state = .active then (s.works.entry e).gen
              else (s.works.entry e).gen + 1 })
      ∧ (∀ e, (s.works.entry e).state = .free → t.works.entry e = Entry.free (s.works.entry e).gen)
      ∧ (∀ e, (s.works.entry e).state = .reserved →
          t.works.entry e = { s.works.entry e with lastHeard := s.works.time })
      ∧ ∀ e c x, (s.works.entry e).state = .enrolling → s.works.ctxOf e = some c →
          s.works.ctx c = some x →
          t.works.entry e = (match x.returnTo with
            | .reserved => { s.works.entry e with
                state := .reserved, lastHeard := s.works.time, gen := (s.works.entry e).gen + 1 }
            | .free => Entry.free ((s.works.entry e).gen + 1))

/-! ### The frame path -/

/-- The receive FIFO and the way out of FCL: an arrival is taken below 8 frames and answered busy at 8; a
frame that fails verification is dropped, counted and latched; the frame FCL holds goes on when its
block's queue has a slot, and waits while it has none. -/
def Obligations.FieldArrivalTakenOrBusy : Prop :=
  ∀ s : State,
    (∀ frame, s.rxFifo.length < 8 →
      exec (.fieldArrival frame) s = .next (State.finish
        { s with rxFifo := s.rxFifo ++ [frame], arrivalAnswer := some .taken }))
    ∧ (∀ frame, 8 ≤ s.rxFifo.length →
      exec (.fieldArrival frame) s = .next (State.finish
        { s with
          works := { s.works with latches := { s.works.latches with fieldOverrun := true } },
          arrivalAnswer := some .busy }))
    ∧ (∀ frame rest, s.held = none → s.rxFifo = frame :: rest → fieldFrameGood frame = false →
      exec .fclTakeFrame s = .next (State.finish
        { s with
          rxFifo := rest,
          works := { s.works with
            fieldErrors := min (s.works.fieldErrors + 1) 65535,
            latches := { s.works.latches with fieldCheck := true } } }))
    ∧ ∀ h, s.held = some h →
      ((s.queueOf h.block).length < 8 →
        exec .fclHandOff s = .next (State.finish { s.pushTo h.block h.item with held := none }))
      ∧ (8 ≤ (s.queueOf h.block).length → exec .fclHandOff s = .next s.finish)

/-- Every watch point that matches a good frame counts it, and disarms if it is one-shot. -/
def Obligations.WatchPointsCountHits : Prop :=
  ∀ (s : State) (frame : Bytes) (rest : List Bytes) (f : FieldFrame), s.FclReady frame rest f →
    ∃ t, exec .fclTakeFrame s = .next t ∧ t.rxFifo = rest ∧ ∀ i : Fin 4,
      let p := s.watch[i]
      t.watch[i] =
        if p.armed = true ∧ (p.id = none ∨ p.id = some f.src ∨ p.id = some f.dst)
            ∧ (p.kind = none ∨ p.kind = some f.kind) then
          { p with hits := min (p.hits + 1) 255, armed := !p.oneShot }
        else p

/-- HALTED frames and frames for others go to the host, unless fewer than 4 slots are free. -/
def Obligations.PassThroughFramesGoUp : Prop :=
  ∀ (s : State) (frame : Bytes) (rest : List Bytes) (f : FieldFrame) (cause : Byte),
    s.FclReady frame rest f → s.Unwatched →
    (s.works.device = .halted ∧ cause = 0
      ∨ s.works.device = .running ∧ f.dst ≠ s.works.site.controller ∧ f.dst ≠ 0xFFFFFF#24
          ∧ cause = 1) →
    (4 ≤ s.works.freeSlots →
      exec .fclTakeFrame s = .next (State.finish
        { s with
          rxFifo := rest,
          works := { s.works with
            upQueue := s.works.upQueue ++
              [uplinkFrame 0x05 0 ([cause] ++ be32 s.works.time ++ [0, 0] ++ frame)] } }))
    ∧ (s.works.freeSlots < 4 →
      exec .fclTakeFrame s = .next (State.finish
        { s with
          rxFifo := rest,
          works := { s.works with latches := { s.works.latches with uplinkShed := true } } }))

/-- A READING of an ACTIVE entry, with a new sequence and below the chatter limit, passes the gate: a copy
goes to the host first when a class it carries asks for one, unless fewer than 4 slots are free, and
the frame goes to SWU, or is held while SWU's queue is full.  Which readings of a frame that is not well
formed count for the copy is the model's reading (DEDUCED, log 35). -/
def Obligations.ActiveReadingReachesSwu : Prop :=
  ∀ (s : State) (frame : Bytes) (rest : List Bytes) (f : FieldFrame) (e : EntryIx),
    s.ForPart frame rest f → f.kind = 0x01 →
    s.works.sourceValid f.src = true → s.works.lookup f.src = .roster e .active →
    (s.works.entry e).lastSeq ≠ some f.seq →
    (s.works.chatterLimit e = 0 ∨ min ((s.works.entry e).frames + 1) 255 ≤ s.works.chatterLimit e) →
    ∃ t item, exec .fclTakeFrame s = .next t
      ∧ item = { frame := frame, hit := .roster e .active, role := some (s.works.entry e).role }
      ∧ s.works.OnlyEntry t.works e
          { s.works.entry e with
            lastHeard := s.works.time, lastSeq := some f.seq,
            frames := min ((s.works.entry e).frames + 1) 255 }
      ∧ s.works.SameBase t.works ∧ t.works.zones = s.works.zones ∧ t.works.runs = s.works.runs
      ∧ s.SameAround { t with rxFifo := s.rxFifo, swuQueue := s.swuQueue, held := s.held }
      ∧ t.rxFifo = rest
      ∧ (s.swuQueue.length < 8 → t.swuQueue = s.swuQueue ++ [item] ∧ t.held = none)
      ∧ (8 ≤ s.swuQueue.length →
          t.swuQueue = s.swuQueue ∧ t.held = some { block := .swu, item := item })
      ∧ (State.wantsCopy s.works f = false →
          t.works.upQueue = s.works.upQueue ∧ t.works.latches = s.works.latches)
      ∧ (State.wantsCopy s.works f = true → 4 ≤ s.works.freeSlots →
          t.works.upQueue = s.works.upQueue ++
              [uplinkFrame 0x05 0 ([3] ++ be32 s.works.time ++ [2, byte e.val] ++ frame)]
            ∧ t.works.latches = s.works.latches)
      ∧ (State.wantsCopy s.works f = true → s.works.freeSlots < 4 →
          t.works.upQueue = s.works.upQueue
            ∧ t.works.latches = { s.works.latches with uplinkShed := true })

/-- The roster gate and the strays.  A frame of a MUTED or QUARANTINED node, and a repeat, are dropped with
last heard set; a new frame brings a SILENT or LOST node back, LOST with a NODE_BACK notice; the frame
that crosses the chatter limit mutes its node with a NODE_MUTED notice and goes no further.  A stray sets
the STRAY latch, and a stray READING is forwarded when the site asks for it.  What the notices repeat of
their subject is the model's choice (log 9). -/
def Obligations.GateFiltersAndStrays : Prop :=
  ∀ (s : State) (frame : Bytes) (rest : List Bytes) (f : FieldFrame), s.ForPart frame rest f →
    (s.works.sourceValid f.src = true →
      (∀ e st, s.works.lookup f.src = .roster e st → st.enrolled = true →
          (f.kind = 0x01 ∨ f.kind = 0x08 ∨ f.kind = 0x0A) →
        let n := s.works.entry e
        (st = .muted ∨ st = .quarantined ∨ n.lastSeq = some f.seq →
          exec .fclTakeFrame s = .next (State.finish
            { s with
              rxFifo := rest,
              works := s.works.modEntry e fun x => { x with lastHeard := s.works.time } }))
        ∧ (st = .active → n.lastSeq ≠ some f.seq → s.works.chatterLimit e ≠ 0 →
            s.works.chatterLimit e < min (n.frames + 1) 255 →
          ∃ t, exec .fclTakeFrame s = .next t
            ∧ s.works.OnlyEntry t.works e
                { n with
                  lastHeard := s.works.time, lastSeq := some f.seq, state := .muted,
                  frames := min (n.frames + 1) 255, muteCloses := 2, gen := n.gen + 1 }
            ∧ s.works.SameBase t.works ∧ s.SameAround { t with rxFifo := s.rxFifo } ∧ t.rxFifo = rest
            ∧ (n.airZone = none → t.works =
                { s.works.notice .nodeMuted (byte e.val)
                    ([byte e.val] ++ beId n.id ++ [byte (s.works.chatterLimit e)]) with
                  roster := t.works.roster, touched := [] }))
        ∧ ((st = .silent ∨ st = .lost) → n.lastSeq ≠ some f.seq →
            (s.works.chatterLimit e = 0 ∨ min (n.frames + 1) 255 ≤ s.works.chatterLimit e) →
            0 < n.interval → s.works.time < 0xFFFFFFFF → f.kind = 0x01 → s.swuQueue.length < 8 →
          ∃ t, exec .fclTakeFrame s = .next t
            ∧ s.works.OnlyEntry t.works e
                { n with
                  lastHeard := s.works.time, lastSeq := some f.seq, state := .active,
                  frames := min (n.frames + 1) 255, gen := n.gen + 1 }
            ∧ s.works.SameBase t.works
            ∧ s.SameAround { t with rxFifo := s.rxFifo, swuQueue := s.swuQueue } ∧ t.rxFifo = rest
            ∧ t.swuQueue = s.swuQueue ++
                [{ frame := frame, hit := .roster e st, role := some n.role }]
            ∧ (n.airZone = none → s.works.valveZone? n.id = none →
                State.wantsCopy s.works f = false →
              (st = .silent → t.works = { s.works with roster := t.works.roster, touched := [] })
              ∧ (st = .lost → t.works =
                  { s.works.notice .nodeBack (byte e.val) ([byte e.val] ++ beId n.id) with
                    roster := t.works.roster, touched := [] }))))
      ∧ (f.kind = 0x01 →
          (s.works.lookup f.src = .none ∨ ∃ e, s.works.lookup f.src = .roster e .reserved) →
        (s.works.site.forwardStrays = false →
          exec .fclTakeFrame s = .next (State.onWorks { s with rxFifo := rest } Works.latchStray).finish)
        ∧ (s.works.site.forwardStrays = true → 4 ≤ s.works.freeSlots →
          exec .fclTakeFrame s = .next (State.finish
            { s with
              rxFifo := rest,
              works := { s.works with
                latches := { s.works.latches with stray := true },
                upQueue := s.works.upQueue ++
                  [uplinkFrame 0x05 0 ([2] ++ be32 s.works.time ++ [0, 0] ++ frame)] } }))
        ∧ (s.works.site.forwardStrays = true → s.works.freeSlots < 4 →
          exec .fclTakeFrame s = .next (State.finish
            { s with
              rxFifo := rest,
              works := { s.works with
                latches := { s.works.latches with stray := true, uplinkShed := true } } })))
      ∧ ((f.kind = 0x08 ∨ f.kind = 0x0A)
            ∧ (∀ e st, s.works.lookup f.src = .roster e st → st.enrolled = false)
          ∨ f.kind ∉ [0x01, 0x02, 0x03, 0x08, 0x0A] →
        exec .fclTakeFrame s = .next (State.onWorks { s with rxFifo := rest } Works.latchStray).finish))
    ∧ (s.works.sourceValid f.src = false →
        exec .fclTakeFrame s = .next (State.onWorks { s with rxFifo := rest } Works.latchStray).finish)
    ∧ s.works.latchStray = { s.works with latches := { s.works.latches with stray := true } }

/-! ### Readings -/

/-- A window-path reading is judged by the window of the active table that covers its source: a MOISTURE
reading joins the accumulator of that window's zone, a reading of another channel, class or bound sets
the BOUNDS latch and nothing else.  A frame whose source no enabled window covers any more is dropped,
which is the model's choice (log 21). -/
def Obligations.WindowReadingAccumulates : Prop :=
  ∀ (s : State) (h : HandOff) (rest : List HandOff) (f : FieldFrame) (r : Reading) (ix : Fin 4)
    (z₀ : ZoneIx) (k₀ : ClassCode),
    s.swuQueue = h :: rest → h.hit = .window ix z₀ k₀ → fieldFrame? h.frame = some f →
    (s.works.windowOf? f.src = none →
      exec .swuTakeReading s = .next (State.finish { s with swuQueue := rest }))
    ∧ ∀ j, s.works.windowOf? f.src = some j → readingList? f.payload = some [r] →
      let row := s.works.tables.windows[j]
      (r.channel ≠ 0 ∨ r.cls ≠ row.cls.val ∨ r.raw < s.works.tables.classes[row.cls].lower
          ∨ s.works.tables.classes[row.cls].upper < r.raw →
        exec .swuTakeReading s = .next (State.finish
          { s with
            swuQueue := rest,
            works := { s.works with latches := { s.works.latches with bounds := true } } }))
      ∧ ∀ i : WinIx, r.channel = 0 → r.cls = 0 → row.cls = 0 →
        s.works.tables.classes[0].lower ≤ r.raw → r.raw ≤ s.works.tables.classes[0].upper →
        (s.works.cfg row.zone).inUse = true → s.windows[i].isOpen = true →
        ∃ t, exec .swuTakeReading s = .next t
          ∧ t.works = { s.works with touched := [] }
          ∧ s.SameAround { t with swuQueue := s.swuQueue, windows := s.windows } ∧ t.swuQueue = rest
          ∧ (∀ j : WinIx, s.windows[j].isOpen = false → t.windows[j] = s.windows[j])
          ∧ (∀ y, y ≠ row.zone → t.windows[i].acc[y] = s.windows[i].acc[y])
          ∧ (s.windows[i].acc[row.zone].count < 255 → t.windows[i].acc[row.zone] =
              { count := s.windows[i].acc[row.zone].count + 1,
                sum := s.windows[i].acc[row.zone].sum + r.raw,
                min := some (match s.windows[i].acc[row.zone].min with
                  | some m => min m r.raw
                  | none => r.raw),
                max := some (match s.windows[i].acc[row.zone].max with
                  | some m => max m r.raw
                  | none => r.raw),
                overflow := s.windows[i].acc[row.zone].overflow })
          ∧ (255 ≤ s.windows[i].acc[row.zone].count → t.windows[i].acc[row.zone] =
              { s.windows[i].acc[row.zone] with
                overflow := min (s.windows[i].acc[row.zone].overflow + 1) 65535 })

/-- A roster-path reading.  It is calibrated (exact product, quotient by 1024 truncated toward zero,
offset, saturation) and judged by its class's bounds.  A good one is kept as its channel's latest value,
clears the bad streak and goes by its class: MOISTURE to the open window, AIR_DRY and AIR_WET to FRW, FLOW
of the flow meter and VALVE of a valve node to VCU, AUX nowhere.  A trapped one sets the BOUNDS latch and
adds to the bad streak; at the class's quarantine limit the entry is QUARANTINED and the rest of the frame
discarded.  What the notices repeat of their subject is the model's choice (log 9), and that RDP acts before
the notice of a valve and FRW after VALVE_CLEARED is its reading (DEDUCED, log 32). -/
def Obligations.RosterReadingCalibratedAndKept : Prop :=
  (∀ (raw : Int) (scale : Nat) (offset : Int),
    calibrate raw scale offset = max (-32768) (min ((raw * scale).tdiv 1024 + offset) 32767))
  ∧ (∀ raw : Int, -32768 ≤ raw → raw ≤ 32767 → calibrate raw 1024 0 = raw)
  ∧ (∀ (s : State) (h : HandOff) (rest : List HandOff) (f : FieldFrame) (e : EntryIx) (st : NodeState)
      (r : Reading) (c : Channel),
    s.RosterFrame h rest f e st [r] → (s.works.entry e).channels[r.channel]? = some c →
    r.cls = c.cls.val →
    let v := calibrate r.raw c.scale c.offset
    s.works.tables.classes[c.cls].lower ≤ v → v ≤ s.works.tables.classes[c.cls].upper →
    let kept := s.works.modEntry e fun n =>
      { n with channels := n.channels.set r.channel { c with latest := some v }, badStreak := 0 }
    let with_ := fun w : Works => exec .swuTakeReading s =
      .next (State.finish { s with swuQueue := rest, works := w })
    (c.cls = 3 → with_ kept)
    ∧ (c.cls = 0 → (∀ z, (s.works.entry e).zone = some z → (s.works.cfg z).inUse = false) → with_ kept)
    ∧ (c.cls = 0 → ∀ z, (s.works.entry e).zone = some z → (s.works.cfg z).inUse = true →
      ∃ t, exec .swuTakeReading s = .next t ∧ t.works = { kept with touched := [] }
        ∧ s.SameAround { t with swuQueue := s.swuQueue, windows := s.windows } ∧ t.swuQueue = rest
        ∧ ∀ i : WinIx, t.windows[i] = if s.windows[i].isOpen = true then
            { s.windows[i] with
              acc := s.windows[i].acc.set z.val (s.windows[i].acc[z].add v) z.isLt }
            else s.windows[i])
    ∧ (c.cls = 1 ∨ c.cls = 2 → (s.works.entry e).zone = none → with_ kept)
    ∧ (c.cls = 1 ∨ c.cls = 2 → ∀ z, (s.works.entry e).zone = some z →
        with_ (kept.frostEvent z (decide (c.cls = 2 ∧ ((s.works.entry e).state = .active
          ∨ (s.works.entry e).state = .silent))) .reading))
    ∧ (c.cls = 4 → s.works.site.meter ≠ some f.src → with_ kept)
    ∧ (c.cls = 4 → s.works.site.meter = some f.src →
      ∃ t, exec .swuTakeReading s = .next t ∧ t.works.roster = kept.roster
        ∧ t.works.zones = s.works.zones ∧ s.works.SameBase t.works
        ∧ s.SameAround { t with swuQueue := s.swuQueue } ∧ t.swuQueue = rest
        ∧ t.works.latches.leak = (s.works.latches.leak || decide (0 < s.works.site.leakLimit
            ∧ s.works.line.state = .idle ∧ (s.works.site.leakLimit : Int) < v))
        ∧ ∀ i, t.works.run i = (s.works.run i).map fun x =>
            if ((s.works.admittedDemand / 2 : Nat) : Int) ≤ v then { x with flowDeadline := none }
            else x)
    ∧ (c.cls = 5 → s.works.valveZone? f.src = none → with_ kept)
    ∧ (c.cls = 5 → ∀ z, s.works.valveZone? f.src = some z →
      (v = 0 ∧ (s.works.zone z).valve ≠ .stuck
          ∨ v = 1 ∧ ((s.works.zone z).valve ≠ .closed ∨ (s.works.zone z).cmd ≠ none)
          ∨ v ≠ 0 ∧ v ≠ 1 → with_ kept)
      ∧ (v = 0 → (s.works.zone z).valve = .stuck →
          with_ ((((kept.setValve z .closed).rdpEvent Works.offerAdmission).notice .valveCleared
            (byte z.val) ([byte z.val] ++ beId f.src ++ [0])).protectionPossible z .valve))
      ∧ (v = 1 → (s.works.zone z).valve = .closed → (s.works.zone z).cmd = none →
          with_ (((kept.setValve z .stuck).rdpEvent fun w => w.valveStuck z).notice .valveFault
            (byte z.val) ([byte z.val] ++ beId f.src ++ [1])))))
  ∧ ∀ (s : State) (h : HandOff) (rest : List HandOff) (f : FieldFrame) (e : EntryIx) (st : NodeState)
      (r : Reading) (more : List Reading) (limit : Nat) (cls : Byte),
    s.RosterFrame h rest f e st (r :: more) →
    let n := s.works.entry e
    (n.channels[r.channel]? = none
        ∧ limit = (match classCode? r.cls with
            | some k => s.works.tables.classes[k].quarantine
            | none => 0)
        ∧ cls = byte r.cls
      ∨ (∃ c, n.channels[r.channel]? = some c
        ∧ (r.cls ≠ c.cls.val
          ∨ calibrate r.raw c.scale c.offset < s.works.tables.classes[c.cls].lower
          ∨ s.works.tables.classes[c.cls].upper < calibrate r.raw c.scale c.offset)
        ∧ limit = s.works.tables.classes[c.cls].quarantine ∧ cls = byte c.cls.val)) →
    let streak := min (n.badStreak + 1) 15
    let latched := { s.works with latches := { s.works.latches with bounds := true } }
    (more = [] → (limit = 0 ∨ streak < limit ∨ n.state ≠ .active ∧ n.state ≠ .silent) →
      exec .swuTakeReading s = .next (State.finish
        { s with swuQueue := rest, works := latched.modEntry e fun x => { x with badStreak := streak } }))
    ∧ (limit ≠ 0 → limit ≤ streak → (n.state = .active ∨ n.state = .silent) →
      ∃ t, exec .swuTakeReading s = .next t
        ∧ s.works.OnlyEntry t.works e
            { n with
              badStreak := streak, state := .quarantined, gen := n.gen + 1,
              channels := n.channels.map fun c => { c with latest := none } }
        ∧ s.works.SameBase t.works ∧ t.works.latches.bounds = true
        ∧ s.SameAround { t with swuQueue := s.swuQueue } ∧ t.swuQueue = rest
        ∧ (n.airZone = none → t.works =
            { latched.notice .nodeQuarantined (byte e.val) ([byte e.val] ++ beId n.id ++ [cls]) with
              roster := t.works.roster, touched := [] }))

/-! ### Enrollment -/

/-- A JOIN from a RESERVED entry that continues opens its exchange. -/
def Obligations.ReservedJoinOpensExchange : Prop :=
  ∀ (s : State) (h : HandOff) (rest : List HandOff) (f : FieldFrame) (j : Join) (e : EntryIx)
    (c : CtxIx),
    s.enuQueue = h :: rest → fieldFrame? h.frame = some f → f.kind = 0x02 →
    join? f.payload = some j → s.works.sourceValid f.src = true →
    s.works.lookup f.src = .roster e .reserved → (s.works.entry e).state = .reserved →
    (s.works.entry e).id = f.src → (s.works.entry e).channels = [] →
    s.works.tables.roles[j.role.ix].allowed = true → s.works.site.policy ≠ .closed →
    j.role = (s.works.entry e).role → s.works.freeCtx? = some c → j.continues = true →
    s.works.command.length ≤ 14 →
    ∃ t, exec .join s = .next t
      ∧ t.works.entry e = { s.works.entry e with
          state := .enrolling, lastSeq := none, frames := 0, muteCloses := 0, badStreak := 0,
          gen := (s.works.entry e).gen + 1 }
      ∧ (∀ x, x ≠ e → t.works.entry x = s.works.entry x)
      ∧ s.works.OnlyCtx t.works c (some
          { entry := e, returnTo := .reserved, declared := j.declared,
            interval := max s.works.tables.roles[j.role.ix].minInterval
              (min j.interval s.works.tables.roles[j.role.ix].maxInterval),
            sheets := 0, expected := false, lastAck := none, staged := Vector.replicate 4 none,
            stagedNote := none, early := false, deadline := some (after s.works.time 20) })
      ∧ t.works.command = s.works.command ++
          [s.works.composed 0x04 f.src (be16 (max s.works.tables.roles[j.role.ix].minInterval
            (min j.interval s.works.tables.roles[j.role.ix].maxInterval)))]
      ∧ t.works.txSeq = s.works.txSeq + 1
      ∧ s.works.SameBase t.works ∧ t.works.zones = s.works.zones ∧ t.works.runs = s.works.runs
      ∧ s.SameAround { t with enuQueue := s.enuQueue } ∧ t.enuQueue = rest

/-- A JOIN from an unknown node is refused CLOSED under policy CLOSED and NOT_LISTED under LISTED, and
from a windowed node WINDOWED. -/
def Obligations.JoinRefused : Prop :=
  ∀ (s : State) (h : HandOff) (rest : List HandOff) (f : FieldFrame) (j : Join) (reason : Byte),
    s.enuQueue = h :: rest → fieldFrame? h.frame = some f → f.kind = 0x02 →
    join? f.payload = some j → s.works.sourceValid f.src = true →
    (s.works.lookup f.src = .none ∧ s.works.tables.roles[j.role.ix].allowed = true
        ∧ (s.works.site.policy = .closed ∧ reason = 3 ∨ s.works.site.policy = .listed ∧ reason = 1)
      ∨ (∃ ix z k, s.works.lookup f.src = .window ix z k) ∧ reason = 2) →
    s.works.command.length ≤ 14 →
    exec .join s = .next (State.finish
      { s with
        enuQueue := rest,
        works := { s.works with
          command := s.works.command ++ [s.works.composed 0x06 f.src [reason]],
          txSeq := s.works.txSeq + 1 } })

/-- A new CAL sheet is staged, counted and acknowledged, and restarts the sheet deadline. -/
def Obligations.NewSheetStaged : Prop :=
  ∀ (s : State) (h : HandOff) (rest : List HandOff) (f : FieldFrame) (mark : Bool) (i : Fin 4)
    (offset : Int) (scale : Nat) (e : EntryIx) (c : CtxIx) (x : Ctx),
    s.enuQueue = h :: rest → fieldFrame? h.frame = some f → f.kind = 0x03 →
    sheet? f.payload = some { mark := mark, continues := true, body := .cal i.val offset scale } →
    s.works.sourceValid f.src = true → s.works.lookup f.src = .roster e .enrolling →
    s.works.ctxOf e = some c → s.works.ctx c = some x → mark = x.expected → x.sheets < 6 →
    i.val < x.declared.length → (-500 ≤ offset ∧ offset ≤ 500) → (512 ≤ scale ∧ scale ≤ 2047) →
    s.works.command.length ≤ 14 →
    ∃ t, exec .sheet s = .next t
      ∧ s.works.OnlyCtx t.works c (some
          { x with
            sheets := x.sheets + 1, lastAck := some true, expected := !x.expected,
            staged := x.staged.set i.val (some { offset := offset, scale := scale }) i.isLt,
            deadline := some (after s.works.time 20) })
      ∧ t.works.command = s.works.command ++
          [s.works.composed 0x05 f.src [if mark then 1 else 0, 1]]
      ∧ t.works.roster = s.works.roster ∧ t.works.zones = s.works.zones
      ∧ t.works.runs = s.works.runs ∧ s.works.SameBase t.works
      ∧ s.SameAround { t with enuQueue := s.enuQueue } ∧ t.enuQueue = rest

/-- A sheet that says no more follow completes the exchange: acknowledged, its context freed, the entry
ACTIVE with the channel records, calibrations, note and interval of the exchange, heard now.  An entry with
no air channel in a zone, and no valve node, moves nothing else but the ENROLLED notice, whose first items
are the model's choice (log 9). -/
def Obligations.LastSheetCompletesExchange : Prop :=
  ∀ (s : State) (h : HandOff) (rest : List HandOff) (f : FieldFrame) (mark : Bool) (i : Fin 4)
    (offset : Int) (scale : Nat) (e : EntryIx) (c : CtxIx) (x : Ctx),
    s.enuQueue = h :: rest → fieldFrame? h.frame = some f → f.kind = 0x03 →
    sheet? f.payload = some { mark := mark, continues := false, body := .cal i.val offset scale } →
    s.works.sourceValid f.src = true → s.works.lookup f.src = .roster e .enrolling →
    s.works.ctxOf e = some c → s.works.ctx c = some x → mark = x.expected → x.sheets < 6 →
    i.val < x.declared.length → (-500 ≤ offset ∧ offset ≤ 500) → (512 ≤ scale ∧ scale ≤ 2047) →
    s.works.command.length ≤ 14 → 0 < x.interval → s.works.time < 0xFFFFFFFF →
    let staged := x.staged.set i.val (some { offset := offset, scale := scale }) i.isLt
    let n := s.works.entry e
    ∃ t, exec .sheet s = .next t
      ∧ s.works.OnlyCtx t.works c none
      ∧ t.works.entry e = { n with
          state := .active,
          channels := (x.declared.zip staged.toList).map fun p =>
            { cls := p.1, offset := (p.2.map Calibration.offset).getD 0,
              scale := (p.2.map Calibration.scale).getD 1024, latest := none },
          note := x.stagedNote, interval := x.interval, lastHeard := s.works.time, lastSeq := none,
          frames := 0, muteCloses := 0, badStreak := 0, gen := n.gen + 1 }
      ∧ (∀ y, y ≠ e → t.works.entry y = s.works.entry y)
      ∧ s.works.SameBase t.works ∧ s.SameAround { t with enuQueue := s.enuQueue } ∧ t.enuQueue = rest
      ∧ ((t.works.entry e).airZone = none → s.works.valveZone? f.src = none →
        t.works.command = s.works.command ++
            [s.works.composed 0x05 f.src [if mark then 1 else 0, 1]]
          ∧ t.works.zones = s.works.zones ∧ t.works.runs = s.works.runs
          ∧ t.works.upQueue = (s.works.notice .enrolled (byte e.val)
              (beId f.src ++ [n.role.code, zoneOrNone n.zone] ++ be16 x.interval
                ++ [byte (staged.toList.filter Option.isSome).length, if x.early then 1 else 0]
                ++ optBytes 8 x.stagedNote)).upQueue)

/-- A sheet deadline that is reached fails the exchange: its context is free and the entry returns; before
its time the command changes nothing, which is the model's choice (log 2).  Early traffic, a READING from
an ENROLLING entry, sets the exchange's flag and nothing else. -/
def Obligations.SheetDeadlineFailsExchange : Prop :=
  (∀ (s : State) (c : CtxIx) (x : Ctx) (d : Nat), s.works.ctx c = some x → x.deadline = some d →
    (d ≤ s.works.time →
      ∃ t, exec (.sheetDeadline c.val) s = .next t
        ∧ s.works.OnlyCtx t.works c none
        ∧ t.works.entry x.entry = (match x.returnTo with
            | .reserved => { s.works.entry x.entry with
                state := .reserved, gen := (s.works.entry x.entry).gen + 1 }
            | .free => Entry.free ((s.works.entry x.entry).gen + 1))
        ∧ (∀ y, y ≠ x.entry → t.works.entry y = s.works.entry y)
        ∧ s.works.SameBase t.works ∧ s.SameAround t)
    ∧ (s.works.time < d → exec (.sheetDeadline c.val) s = .next s.finish))
  ∧ ∀ (s : State) (h : HandOff) (rest : List HandOff) (f : FieldFrame) (e : EntryIx) (st : NodeState)
    (c : CtxIx) (x : Ctx),
    s.enuQueue = h :: rest → h.hit = .roster e st → fieldFrame? h.frame = some f → f.kind = 0x01 →
    (s.works.entry e).state = .enrolling → (s.works.entry e).id = f.src →
    s.works.ctxOf e = some c → s.works.ctx c = some x →
    ∃ t, exec .earlyTraffic s = .next t
      ∧ s.works.OnlyCtx t.works c (some { x with early := true })
      ∧ t.works = { s.works with ctxs := t.works.ctxs, touched := [] }
      ∧ s.SameAround { t with enuQueue := s.enuQueue } ∧ t.enuQueue = rest

/-! ### Time and the ports -/

/-- The tick advances device time by one, stopping at FFFFFFFFh, and nothing else.  A silence deadline that
is reached makes an ACTIVE entry SILENT, a loss deadline makes a SILENT entry LOST without latest
values. -/
def Obligations.SilenceAndLossDeadlines : Prop :=
  (∀ s : State, exec .deviceTimeTick s = .next (State.finish
    { s with works := { s.works with time := min (s.works.time + 1) 0xFFFFFFFF } }))
  ∧ ∀ (s : State) (e : EntryIx), s.works.device = .running →
    ((s.works.entry e).state = .active →
        after (s.works.entry e).lastHeard (3 * (s.works.entry e).interval) ≤ s.works.time →
      ∃ t, exec (.silenceDeadline e.val) s = .next t
        ∧ s.works.OnlyEntry t.works e
            { s.works.entry e with state := .silent, gen := (s.works.entry e).gen + 1 }
        ∧ s.works.SameBase t.works ∧ s.SameAround t)
    ∧ ((s.works.entry e).state = .silent →
        after (s.works.entry e).lastHeard (10 * (s.works.entry e).interval) ≤ s.works.time →
      ∃ t, exec (.lossDeadline e.val) s = .next t
        ∧ s.works.OnlyEntry t.works e
            { s.works.entry e with
              state := .lost, gen := (s.works.entry e).gen + 1,
              channels := (s.works.entry e).channels.map fun c => { c with latest := none } }
        ∧ s.works.SameBase t.works ∧ s.SameAround t)

/-- The arbiter takes URGENT before COMMAND before PASS, and only while nothing is in flight; SENT,
NOT_SENT and the expiry of the answer wait alike end the transmission, and a late answer is ignored.  That
a hand-off with nothing to hand and an expiry before its time change nothing is the model's choice (log 2),
and so is the operand that tells a late answer from one in time (log 12). -/
def Obligations.FieldTransmission : Prop :=
  ∀ s : State,
    (s.inFlight ≠ none → exec .fieldTxHandOff s = .next s.finish)
    ∧ (s.inFlight = none →
      (∀ f rest, s.works.urgent = f :: rest →
        exec .fieldTxHandOff s = .next (State.finish
          { s with works := { s.works with urgent := rest },
                   inFlight := some { frame := f, expiry := after s.works.time 2 } }))
      ∧ (∀ f rest, s.works.urgent = [] → s.works.command = f :: rest →
        exec .fieldTxHandOff s = .next (State.finish
          { s with works := { s.works with command := rest },
                   inFlight := some { frame := f, expiry := after s.works.time 2 } }))
      ∧ (∀ f rest, s.works.urgent = [] → s.works.command = [] → s.works.pass = f :: rest →
        exec .fieldTxHandOff s = .next (State.finish
          { s with works := { s.works with pass := rest },
                   inFlight := some { frame := f, expiry := after s.works.time 2 } }))
      ∧ (s.works.urgent = [] → s.works.command = [] → s.works.pass = [] →
        exec .fieldTxHandOff s = .next s.finish))
    ∧ (∀ a, exec (.fieldTxAnswer a .inFlight) s = .next (State.finish { s with inFlight := none }))
    ∧ (∀ a, exec (.fieldTxAnswer a .ended) s = .next s.finish)
    ∧ ∀ x, s.inFlight = some x →
        (x.expiry ≤ s.works.time →
          exec .answerWaitExpiry s = .next (State.finish { s with inFlight := none }))
        ∧ (s.works.time < x.expiry → exec .answerWaitExpiry s = .next s.finish)

/-- A good REQUEST that the ready line allows waits with a slot reserved for its reply; any other host
frame is counted and latched.  A frame that has left frees its slot, unless it is the RESET reply. -/
def Obligations.UplinkPortReceivesAndSends : Prop :=
  ∀ (s : State) (frame : Bytes),
    (s.ready = true → uplinkFrameGood frame = true →
        (uplinkFrame? frame).map UplinkFrame.kind = some 0x01 →
      exec (.uplinkFrameReceived frame) s = .next (State.finish
        { s with requests := s.requests ++ [frame],
                 works := { s.works with reserved := s.works.reserved + 1 } }))
    ∧ (s.ready = false ∨ uplinkFrameGood frame = false
        ∨ (uplinkFrame? frame).map UplinkFrame.kind ≠ some 0x01 →
      exec (.uplinkFrameReceived frame) s = .next (State.finish
        { s with works := { s.works with
            uplinkErrors := min (s.works.uplinkErrors + 1) 65535,
            latches := { s.works.latches with uplinkCheck := true } } }))
    ∧ (s.resetLeaving = false →
      exec .uplinkFrameSent s = .next (State.finish
        { s with works := { s.works with upQueue := s.works.upQueue.tail } }))

/-- Field and uplink frames the part composes pass the checks of their port and carry what they were
given. -/
def Obligations.ComposedFramesVerify : Prop :=
  (∀ (w : Works) (kind : Byte) (dst : NodeId) (payload : Bytes), payload.length ≤ 40 →
    fieldFrameGood (w.composed kind dst payload) = true
      ∧ fieldFrame? (w.composed kind dst payload) = some
          { kind := kind, dst := dst, src := w.site.controller, seq := w.txSeq, payload := payload })
  ∧ ∀ (kind tag : Byte) (payload : Bytes), payload.length ≤ 250 →
    uplinkFrameGood (uplinkFrame kind tag payload) = true
      ∧ uplinkFrame? (uplinkFrame kind tag payload) = some
          { kind := kind, tag := tag, payload := payload }

/-- An enabled notice takes a free slot with the gap flag, or is lost and remembered; a masked one is
discarded. -/
def Obligations.NoticesMaskedQueuedOrLost : Prop :=
  ∀ (w : Works) (k : NoticeKind) (subject : Byte) (detail : Bytes),
    (w.mask[k.ix] = false → w.notice k subject detail = w)
    ∧ (w.mask[k.ix] = true → 1 ≤ w.freeSlots →
        w.notice k subject detail =
          { w with
            upQueue := w.upQueue ++ [uplinkFrame 0x03 0
              ([k.code] ++ be32 w.time ++ [subject, if w.gapPending then 1 else 0] ++ detail)],
            gapPending := false })
    ∧ (w.mask[k.ix] = true → w.freeSlots = 0 →
        w.notice k subject detail =
          { w with gapPending := true, latches := { w.latches with noticeGap := true } })

/-! ### Windows and estimates -/

/-- A window close: the open window keeps its totals, the other opens cleared with the period now in
force, and ZTB takes its fold record.  A pending commit is validated after the fold, and after NRS's work
where that has its turn before (the model's choice, log 7): the tables become the bank's when every check
passes and stay as they are when one fails. -/
def Obligations.WindowCloseSwapsWindows : Prop :=
  ∀ (s : State) (nrs : NrsTurn) (i : WinIx) (d : Nat) (folded judged : Works),
    s.windows[i].isOpen = true →
    s.windows[State.otherWindow i].isOpen = false → s.windows[i].closeDeadline = some d →
    d ≤ s.works.time →
    folded = (match s.folds[i] with
      | some record => s.works.foldWindow s.windows[i].acc record
      | none => s.works) →
    judged = (if nrs = .beforeCommit then folded.rosterClose else folded) →
    ∃ t, exec (.windowClose nrs) s = .next t
      ∧ t.windows[i] = { s.windows[i] with
          isOpen := false, closeDeadline := none, closedAt := some s.works.time }
      ∧ t.windows[State.otherWindow i] =
          { isOpen := true, openedAt := some s.works.time,
            closeDeadline := some (after s.works.time t.works.site.windowPeriod),
            period := some t.works.site.windowPeriod,
            closedAt := s.windows[State.otherWindow i].closedAt,
            acc := Vector.replicate 40 Acc.cleared }
      ∧ t.folds[State.otherWindow i] = some t.works.foldRecord
      ∧ t.folds[i] = s.folds[i] ∧ t.commitPending = false
      ∧ t.works.time = s.works.time ∧ t.works.device = s.works.device
      ∧ t.bank = s.bank ∧ t.rxFifo = s.rxFifo ∧ t.swuQueue = s.swuQueue ∧ t.enuQueue = s.enuQueue
      ∧ t.vcuQueue = s.vcuQueue ∧ t.mguQueue = s.mguQueue ∧ t.requests = s.requests
      ∧ t.watch = s.watch ∧ t.pending = s.pending
      ∧ (s.commitPending = false → t.works.tables = s.works.tables)
      ∧ (s.commitPending = true → judged.validate s.bank = none → t.works.tables = s.bank)
      ∧ (s.commitPending = true → judged.validate s.bank ≠ none → t.works.tables = s.works.tables)

/-- R90: the fold of a zone with samples, smoothed by the weight of the fold record. -/
def Obligations.FoldWithSamples : Prop :=
  ∀ (w : Works) (acc : Vector Acc 40) (record : Vector FoldRow 40) (z : ZoneIx),
    record[z].inUse = true → (w.cfg z).inUse = true → 0 < acc[z].count →
    (w.foldWindow acc record).zone z =
      { w.zone z with
        estimate := some (match (w.zone z).estimate with
          | none => acc[z].sum.tdiv acc[z].count
          | some e => (e * (16 - record[z].weight)
              + acc[z].sum.tdiv acc[z].count * record[z].weight).tdiv 16),
        quality := .fresh, empty := 0 }

/-- R91: the fold of a zone without samples, and R89: a zone not in use in the fold record or now is not
touched. -/
def Obligations.FoldWithoutSamples : Prop :=
  ∀ (w : Works) (acc : Vector Acc 40) (record : Vector FoldRow 40) (z : ZoneIx),
    (record[z].inUse = true → (w.cfg z).inUse = true → acc[z].count = 0 →
      (w.foldWindow acc record).zone z =
        { w.zone z with
          empty := min ((w.zone z).empty + 1) 32,
          quality := match (w.zone z).estimate with
            | none => .none
            | some _ =>
              if min ((w.zone z).empty + 1) 32 < record[z].staleLimit then .stale else .none })
    ∧ ((record[z].inUse = false ∨ (w.cfg z).inUse = false) →
      (w.foldWindow acc record).zone z = w.zone z)

/-- The reports and the trigger of a close, where NRS's work does not fall among them (log 7). The zones in
use go out in ascending order, at most 16 to a REPORT, each taken while 4 slots are free and shed with the
REPORT_SHED latch otherwise. A zone triggers when every condition holds, and with nothing else in RDP's
hands it joins the newest gathering run that takes it, or starts a run, or sets RUN_FULL when no slot is
left. -/
def Obligations.ReportsAndTrigger : Prop :=
  (∀ (w : Works) (i : WinIx) (closedAt : Nat) (acc : Vector Acc 40) (zs : List ZoneIx),
    zs = (List.finRange 40).filter (fun z => (w.cfg z).inUse) →
    w.reportGroups.flatten = zs ∧ w.reportGroups.length = (zs.length + 15) / 16
    ∧ (∀ (k : Nat) g, w.reportGroups[k]? = some g → g = (zs.drop (16 * k)).take 16)
    ∧ w.sendReports i closedAt acc = w.reportGroups.foldl (fun v g => v.report
        ([byte i.val] ++ be32 closedAt ++ [byte g.length] ++ g.flatMap (v.summary acc))) w
    ∧ (zs = [] → w.sendReports i closedAt acc = w)
    ∧ (zs ≠ [] → zs.length ≤ 16 → 4 ≤ w.freeSlots →
        w.sendReports i closedAt acc = { w with upQueue := w.upQueue ++ [uplinkFrame 0x04 0
          ([byte i.val] ++ be32 closedAt ++ [byte zs.length] ++ zs.flatMap (w.summary acc))] })
    ∧ (zs ≠ [] → w.freeSlots < 4 →
        w.sendReports i closedAt acc = { w with latches := { w.latches with reportShed := true } })
    ∧ (16 < zs.length → zs.length ≤ 32 → w.freeSlots = 4 →
        w.sendReports i closedAt acc = { w with
          upQueue := w.upQueue ++ [uplinkFrame 0x04 0 ([byte i.val] ++ be32 closedAt ++ [16]
            ++ (zs.take 16).flatMap (w.summary acc))],
          latches := { w.latches with reportShed := true } }))
  ∧ (∀ (w : Works) (acc : Vector Acc 40) (z : ZoneIx),
    w.summary acc z =
      [byte z.val,
       byte ((if (w.zone z).estimate.isSome then 1 else 0) + (if 0 < acc[z].count then 2 else 0)
        + (if (w.zone z).dry.isSome then 4 else 0) + (if (w.zone z).wet.isSome then 8 else 0))]
      ++ signed16 ((w.zone z).estimate.getD 0) ++ [(w.zone z).quality.code, byte acc[z].count]
      ++ signed16 (acc[z].min.getD 0) ++ signed16 (acc[z].max.getD 0) ++ [(w.zone z).frost.code]
      ++ signed16 (((w.zone z).dry.map Figure.value).getD 0)
      ++ signed16 (((w.zone z).wet.map Figure.value).getD 0)
    ∧ (w.summary acc z).length = 15)
  ∧ ∀ (w : Works) (z : ZoneIx),
    (¬((w.cfg z).inUse = true ∧ (w.zone z).auto = true ∧ (w.zone z).quality = .fresh
        ∧ (∃ m, (w.zone z).estimate = some m ∧ m < (w.cfg z).refill) ∧ (w.zone z).frost = .clear
        ∧ (w.zone z).valve = .closed
        ∧ (∃ id e, (w.cfg z).valveNode = some id ∧ (w.entry e).id = id
            ∧ ((w.entry e).state = .active ∨ (w.entry e).state = .silent))
        ∧ (∀ i r x, w.run i = some r → r.live = true → r.entry? z = some x → x.state.active = false)
        ∧ (w.cfg z).demand ≤ w.site.capacity) →
      w.trigger z = w)
    ∧ ∀ m target entry, w.mayTrigger z = true → (w.zone z).estimate = some m →
        m < (w.cfg z).refill → w.Idle →
        target = min ((((w.cfg z).full : Int) - m).toNat * (w.cfg z).litresPerPoint)
          (w.cfg z).maxVolume →
        entry = RunEntry.waiting z (some target) →
      (∀ i r, w.gatheringRun? = some (i, r) → r.entries.length < 8 → r.entry? z = none →
          w.demandSum (r.zonesIn .waiting) + w.demandOf z ≤ w.site.capacity →
        (w.trigger z).run i = some { r with entries := r.entries ++ [entry] }
          ∧ (∀ j, j ≠ i → (w.trigger z).run j = w.run j)
          ∧ ((w.trigger z).zone z).runSlot = some i)
      ∧ ((w.gatheringRun? = none ∨ ∃ i r, w.gatheringRun? = some (i, r) ∧ (8 ≤ r.entries.length
            ∨ r.entry? z ≠ none
            ∨ w.site.capacity < w.demandSum (r.zonesIn .waiting) + w.demandOf z)) →
        (∀ i, w.newSlot? = some i → 0 < w.site.gatherTime →
          (w.trigger z).run i = some
            { number := w.runNumber, serial := w.runSerial, kind := .irrigation, origin := .auto,
              state := .gathering, created := w.time,
              gatherDeadline := some (after w.time w.site.gatherTime), flowDeadline := none,
              closeCause := none, entries := [entry] }
          ∧ (∀ j, j ≠ i → (w.trigger z).run j = w.run j)
          ∧ ((w.trigger z).zone z).runSlot = some i)
        ∧ (∀ i, w.newSlot? = some i → w.site.gatherTime = 0 →
          w.trigger z = w.rdpEvent fun v =>
            (v.createRun i .irrigation .auto .queued none [entry]).offerAdmission)
        ∧ (w.newSlot? = none →
          (w.trigger z).latches = { w.latches with runFull := true }
            ∧ (w.trigger z).runs = w.runs ∧ (w.trigger z).zones = w.zones))

/-! ### Frost -/

/-- A thaw deadline that is reached ends protection: the deadline is dropped, the zone settled, its OPEN
frost entry goes to CLOSING with cause COMPLETE, and VCU closes the valve.  Before its time the command
changes nothing, which is the model's choice (log 2). -/
def Obligations.ThawDeadlineSettlesZone : Prop :=
  ∀ (s : State) (z : ZoneIx) (d : Nat), (s.works.zone z).frost = .thawing →
    (s.works.zone z).thaw = some d →
    (d ≤ s.works.time →
      ∃ t, exec (.thawDeadline z.val) s = .next t
        ∧ (t.works.zone z).frost = (match (s.works.zone z).dry with
            | some f => if (s.works.cfg z).watchDry + 5 ≤ f.value then .clear else .watch
            | none => .watch)
        ∧ (t.works.zone z).thaw = none ∧ (t.works.zone z).confirm = 0
        ∧ (∀ y, y ≠ z → (t.works.zone y).frost = (s.works.zone y).frost)
        ∧ t.works.roster = s.works.roster ∧ t.works.ctxs = s.works.ctxs
        ∧ s.works.SameBase t.works ∧ s.SameAround t
        ∧ ∀ r e, s.works.frostRun? = some r → r.entry? z = some e → e.state = .opened →
            (s.works.zone z).valve = .opened → s.NoWorkInHand →
          ∃ r', t.works.run 0 = some r'
            ∧ r'.entries = r.entries.map (fun x => if x.zone = z then
                { x with
                  delivered := (x.credit s.works.time (s.works.demandOf z)).delivered,
                  state := .closing, openSince := none, completion := none,
                  closeCause := some .complete } else x)
            ∧ (t.works.zone z).valve = .closing
            ∧ ∃ c, (t.works.zone z).cmd = some c ∧ c.kind = .closeValve ∧ c.number = s.works.cmdNumber
                ∧ c.attempts = 1 ∧ c.deadline = some (after s.works.time s.works.site.ackWait))
    ∧ (s.works.time < d → exec (.thawDeadline z.val) s = .next s.finish)

/-- The ALERT pin is asserted exactly while some zone is in WARNING, PROTECTING, THAWING or UNPROTECTED: a
change of frost state that makes it so sends an ALERT and starts the timer, one that ends it idles the
timer, and one among those states does neither.  An expiry sends an ALERT of the zones as they stand and
sets the next; before its time it changes nothing, which is the model's choice (log 2). -/
def Obligations.AlertTimerSendsAlert : Prop :=
  (∀ (w : Works) (z : ZoneIx) (new : FrostState) (thaw : Option Nat) (cause : FrostCause) (v : Works),
    (w.zone z).frost ≠ new → v = w.setFrost z new thaw cause →
    (v.alert = true ↔ ∃ y, (v.zone y).frost ≠ .clear ∧ (v.zone y).frost ≠ .watch)
    ∧ (v.zone z).frost = new ∧ (∀ y, y ≠ z → v.zone y = w.zone y)
    ∧ (v.alert = false → v.alertTimer = none ∧ v.urgent = w.urgent)
    ∧ (v.alert = true → w.alert = true → v.alertTimer = w.alertTimer ∧ v.urgent = w.urgent)
    ∧ (v.alert = true → w.alert = false →
        v.alertTimer = some (after w.time w.site.alertInterval)
        ∧ v.urgent = (if w.urgent.length < 8 then
            w.urgent ++ [w.composed 0x09 0xFFFFFF#24 v.alertPayload] else w.urgent)))
  ∧ (∀ w : Works, w.alertPayload = (List.finRange 40).filterMap fun z =>
      match (w.zone z).frost with
      | .clear | .watch => none
      | .warning => some (BitVec.ofNat 8 z.val)
      | .protecting => some (BitVec.ofNat 8 (64 + z.val))
      | .thawing => some (BitVec.ofNat 8 (128 + z.val))
      | .unprotected => some (BitVec.ofNat 8 (192 + z.val)))
  ∧ ∀ (s : State) (d : Nat), s.works.alert = true → s.works.alertTimer = some d →
    (d ≤ s.works.time → s.works.urgent.length < 8 →
      exec .alertTimerExpiry s = .next (State.finish
        { s with works := { s.works with
            urgent := s.works.urgent ++ [s.works.composed 0x09 0xFFFFFF#24 s.works.alertPayload],
            txSeq := s.works.txSeq + 1,
            alertTimer := some (after s.works.time s.works.site.alertInterval) } }))
    ∧ (d ≤ s.works.time → 8 ≤ s.works.urgent.length →
      exec .alertTimerExpiry s = .next (State.finish
        { s with works := { s.works with
            alertTimer := some (after s.works.time s.works.site.alertInterval) } }))
    ∧ (s.works.time < d → exec .alertTimerExpiry s = .next s.finish)

/-- Frost figures and the blind flag.  A zone's own figure of a class is the smallest latest value among
that class's channels of its ACTIVE and SILENT entries; a zone in use takes its own figure, else its
reference zone's own, else none; the blind flag is set while the wet figure is absent, and its change in
RUNNING is noticed.  An event at a zone recomputes the zone and the in-use zones that take it as
reference, and no other.  The items of the two notices beyond the rule's are the model's choice (log 9,
log 10). -/
def Obligations.FrostFiguresFollowSensors : Prop :=
  (∀ (w : Works) (z : ZoneIx) (k : ClassCode),
    (∀ m, w.ownFigure z k = some m →
      (∃ e c, ((w.entry e).state = .active ∨ (w.entry e).state = .silent)
        ∧ (w.entry e).zone = some z ∧ c ∈ (w.entry e).channels ∧ c.cls = k ∧ c.latest = some m)
      ∧ ∀ e c v, ((w.entry e).state = .active ∨ (w.entry e).state = .silent) →
          (w.entry e).zone = some z → c ∈ (w.entry e).channels → c.cls = k → c.latest = some v → m ≤ v)
    ∧ (w.ownFigure z k = none ↔
        ∀ e c, ((w.entry e).state = .active ∨ (w.entry e).state = .silent) →
          (w.entry e).zone = some z → c ∈ (w.entry e).channels → c.cls = k → c.latest = none))
  ∧ (∀ (w : Works) (z : ZoneIx) (figure : Option Int → (ZoneIx → Option Int) → Option Figure) (v : Works),
    (∀ own others, figure own others =
      if (w.cfg z).inUse = true then
        match own, (w.cfg z).reference with
        | some m, _ => some { value := m, source := .own }
        | none, some r => (others r).map fun m => { value := m, source := .reference }
        | none, none => none
      else none) →
    v = w.modZone z (fun x => { x with
      dry := figure x.ownDry fun y => (w.zone y).ownDry,
      wet := figure x.ownWet fun y => (w.zone y).ownWet,
      blind := (figure x.ownWet fun y => (w.zone y).ownWet).isNone }) →
    ((w.device = .halted ∨ (w.cfg z).inUse = false ∨ (v.zone z).blind = (w.zone z).blind) →
      w.formFigures z = v)
    ∧ (w.device = .running → (w.cfg z).inUse = true → (w.zone z).blind = false →
        (v.zone z).wet = none →
      w.formFigures z = v.notice .frostBlind (byte z.val)
        ([byte z.val] ++ optFigure (v.zone z).dry ++ [(w.zone z).frost.code]))
    ∧ (∀ g, w.device = .running → (w.cfg z).inUse = true → (w.zone z).blind = true →
        (v.zone z).wet = some g →
      w.formFigures z = v.notice .frostSighted (byte z.val)
        ([byte z.val] ++ signed16 g.value ++ [g.source.code, (w.zone z).frost.code])))
  ∧ ∀ (w : Works) (z : ZoneIx) (sensor : Bool) (cause : FrostCause) (v : Works),
    v = w.frostEvent z sensor cause →
    (v.zone z).ownDry = (if (w.cfg z).inUse = true then w.ownFigure z 1 else none)
    ∧ (v.zone z).ownWet = (if (w.cfg z).inUse = true then w.ownFigure z 2 else none)
    ∧ (∀ y, (y = z ∨ (w.cfg y).inUse = true ∧ (w.cfg y).reference = some z) →
        (v.zone y).dry = v.pickFigure y Zone.ownDry ∧ (v.zone y).wet = v.pickFigure y Zone.ownWet
          ∧ (v.zone y).blind = (v.zone y).wet.isNone)
    ∧ (∀ y, y ≠ z → (v.zone y).ownDry = (w.zone y).ownDry ∧ (v.zone y).ownWet = (w.zone y).ownWet)
    ∧ (∀ y, y ≠ z → ¬((w.cfg y).inUse = true ∧ (w.cfg y).reference = some z) →
        (v.zone y).dry = (w.zone y).dry ∧ (v.zone y).wet = (w.zone y).wet
          ∧ (v.zone y).blind = (w.zone y).blind ∧ (v.zone y).frost = (w.zone y).frost)

/-- R110: an evaluation in UNPROTECTED settles the zone at or above release wet, and leaves it below. -/
def Obligations.UnprotectedEvaluation : Prop :=
  ∀ (w : Works) (z : ZoneIx) (wet : Int) (counting : Bool) (cause : FrostCause),
    (w.zone z).frost = .unprotected →
    ((w.cfg z).releaseWet ≤ wet →
      ((w.evaluate z wet counting cause).zone z).frost = (match (w.zone z).dry with
        | some f => if (w.cfg z).watchDry + 5 ≤ f.value then .clear else .watch
        | none => .watch)
      ∧ (w.evaluate z wet counting cause).runs = w.runs)
    ∧ (wet < (w.cfg z).releaseWet → w.evaluate z wet counting cause = w)

/-- In CLEAR and WATCH a wet figure below warn wet advances the confirm counter on counting evaluations
alone, until the confirm count is reached. -/
def Obligations.ConfirmCounterAdvances : Prop :=
  ∀ (w : Works) (z : ZoneIx) (wet : Int) (cause : FrostCause),
    ((w.zone z).frost = .clear ∨ (w.zone z).frost = .watch) → wet < (w.cfg z).warnWet →
    w.evaluate z wet false cause = w
    ∧ ((w.zone z).confirm + 1 < (w.cfg z).confirmCount →
      w.evaluate z wet true cause =
        w.modZone z fun x => { x with confirm := (w.zone z).confirm + 1 })
    ∧ ((w.cfg z).confirmCount ≤ (w.zone z).confirm + 1 →
        (w.zone z).protect = false ∨ (w.cfg z).valveNode = none ∨ (w.zone z).valve = .stuck →
      ((w.evaluate z wet true cause).zone z).frost = .unprotected
        ∧ ((w.evaluate z wet true cause).zone z).confirm = 0)

/-! ### Runs, valves and the main line -/

/-- A gather deadline that is reached makes the run QUEUED and offers admission, or ends a run with no
entry waiting.  Before its time the command changes nothing, which is the model's choice (log 2). -/
def Obligations.GatherDeadlineEndsGathering : Prop :=
  ∀ (s : State) (i : SlotIx) (r : Run) (d : Nat), i ≠ 0 → s.works.run i = some r →
    r.state = .gathering → r.gatherDeadline = some d →
    (d ≤ s.works.time → r.has .waiting = true →
      exec (.gatherDeadline i.val) s = .next ((s.onWorks fun w =>
        w.rdpEvent fun v => (v.setRunState i .queued none).offerAdmission).finish)
      ∧ (s.works.setRunState i .queued none).run i =
          some { r with state := .queued, gatherDeadline := none, flowDeadline := none,
                        closeCause := none })
    ∧ (d ≤ s.works.time → r.has .waiting = false → s.NoWorkInHand →
      ∃ t, exec (.gatherDeadline i.val) s = .next t
        ∧ t.works.run i = some
            { r with
              state := if r.has .done then .done else if r.has .faulted then .faulted else .cancelled,
              gatherDeadline := none, flowDeadline := none, closeCause := none }
        ∧ (∀ j, j ≠ i → t.works.run j = s.works.run j))
    ∧ (s.works.time < d → exec (.gatherDeadline i.val) s = .next s.finish)

/-- Admission, suspension and transfer.  A pass takes frost entries first, in join order; the first
admissible one that does not fit ends the pass, and irrigation runs are suspended, newest first, until the
expected free capacity covers it; the oldest suspended run and then the oldest queued one is admitted
whole or not at all.  A suspended run's OPEN entries, credited, and its OPENING ones go to CLOSING.  A zone
placed in the frost run while an irrigation run holds it is transferred.  That an inadmissible frost entry
raises no FROST_SHORT, that the notice counts free capacity after the suspensions, and what of a suspended
run counts as expected, is the model's reading (DEDUCED, log 20, log 24). -/
def Obligations.AdmissionSuspensionTransfer : Prop :=
  (∀ (w : Works) (z : ZoneIx), w.admissible z = true ↔
    (w.cfg z).inUse = true ∧ (w.zone z).valve = .closed ∧ ∃ id e, (w.cfg z).valveNode = some id
      ∧ (w.entry e).id = id ∧ ((w.entry e).state = .active ∨ (w.entry e).state = .silent))
  ∧ (∀ (w : Works) (i : SlotIx) (z : ZoneIx) (r : Run), w.run i = some r →
    (w.admitEntry i z).run i = some
      { r with entries := r.entries.map fun x => if x.zone = z then
          { x with state := .opening, openSince := none, completion := none, closeCause := none }
          else x }
    ∧ ((w.admitEntry i z).zone z).valve = .opening
    ∧ ∃ k, ((w.admitEntry i z).zone z).cmd = some k ∧ k.kind = .openValve ∧ k.renewal = false
      ∧ k.number = w.cmdNumber
      ∧ k.attempts = if w.line.state = .ready ∨ w.line.state = .running then 1 else 0)
  ∧ (∀ (w : Works) (r : Run) (z : ZoneIx) (zs : List ZoneIx), w.frostRun? = some r →
    r.zonesIn .waiting = z :: zs → w.admissible z = true →
    (w.demandOf z ≤ w.freeCapacity →
      ((w.admissionPass.frostEntry? z).map RunEntry.state) = some .opening)
    ∧ (w.freeCapacity < w.demandOf z → w.demandOf z ≤ w.site.capacity →
      let expected := w.freeCapacity + w.closingDemand
      let candidates := w.runsByAge fun x => x.state == .opening || x.state == .flowing
      (w.demandOf z ≤ expected → w.admissionPass = w)
      ∧ (expected < w.demandOf z → candidates = [] →
          w.admissionPass = w.frostShort z expected 0)
      ∧ ∀ i older, expected < w.demandOf z → candidates = older ++ [i] →
        (w.demandOf z ≤ expected + w.suspensionYield i → w.admissionPass = w.suspendRun i)
        ∧ (expected + w.suspensionYield i < w.demandOf z → older = [] →
          w.admissionPass = (w.suspendRun i).frostShort z (expected + w.suspensionYield i) 1)))
  ∧ (∀ (w : Works) (z : ZoneIx) (expected n : Nat) (e : RunEntry), w.frostEntry? z = some e →
    (e.shortNoted = true → w.frostShort z expected n = w)
    ∧ (e.shortNoted = false →
      ((w.frostShort z expected n).frostEntry? z).map RunEntry.shortNoted = some true))
  ∧ (∀ (w : Works) (i : SlotIx) (r : Run), w.run i = some r →
    (∀ y, w.frostRun? = some y → y.zonesIn .waiting = []) →
    (∀ j x, j ≠ 0 → w.run j = some x → (x.state = .opening ∨ x.state = .flowing) →
      x.zonesIn .waiting = []) →
    let fits := (∀ x ∈ r.entries, x.state = .waiting → w.admissible x.zone = true)
      ∧ w.demandSum (r.zonesIn .waiting) ≤ w.freeCapacity
    let admitted := some
      { r with
        state := .opening, closeCause := none, gatherDeadline := none, flowDeadline := none,
        entries := r.entries.map fun x =>
          if r.entries.any (fun y => y.zone == x.zone && y.state == .waiting) then
            { x with state := .opening, openSince := none, completion := none, closeCause := none }
          else x }
    (∀ younger, w.runsByAge (fun x => x.state == .suspended) = i :: younger →
      (fits → w.admissionPass.run i = admitted)
      ∧ ((∀ x ∈ r.entries, x.state = .waiting → w.admissible x.zone = true) → ¬fits →
          w.admissionPass = w))
    ∧ ∀ younger, w.runsByAge (fun x => x.state == .suspended) = [] →
        w.runsByAge (fun x => x.state == .queued) = i :: younger →
      (fits → w.admissionPass.run i = admitted) ∧ (¬fits → w.admissionPass = w))
  ∧ (∀ (w : Works) (i : SlotIx) (r : Run), w.run i = some r →
    (r.state = .opening ∨ r.state = .flowing) → (r.has .opened = true ∨ r.has .opening = true) →
    (w.suspendRun i).run i = some
      { r with
        state := .suspending, closeCause := none, gatherDeadline := none, flowDeadline := none,
        entries := r.entries.map fun x =>
          if r.entries.any (fun y => y.zone == x.zone && (y.state == .opened || y.state == .opening))
          then { x with
                 delivered := (x.credit w.time (w.demandOf x.zone)).delivered,
                 state := .closing, openSince := none, completion := none,
                 closeCause := some .suspend }
          else x }
    ∧ ∀ x ∈ r.entries, (x.state = .opened ∨ x.state = .opening) →
      ((w.zone x.zone).valve = .opened → ((w.suspendRun i).zone x.zone).valve = .closing)
      ∧ ∀ k, (w.zone x.zone).valve = .opening → (w.zone x.zone).cmd = some k →
          ((w.suspendRun i).zone x.zone).valve = if k.attempts = 0 then .closed else .closing)
  ∧ (∀ (x : RunEntry) (time demand : Nat), x.credit time demand = { x with
      delivered := match x.state, x.target, x.openSince with
        | .opened, some target, some since =>
          min target (x.delivered + (time - since) * demand / 60)
        | _, _, _ => x.delivered })
  ∧ ∀ (w : Works) (z : ZoneIx) (i : SlotIx) (x : RunEntry) (v : Works),
    (∀ e, w.frostEntry? z = some e → e.state.active = false) → w.irrigationEntry? z = some (i, x) →
    v = w.placeWork z →
    (v.frostEntry? z).map (fun e => (e.state, e.openSince)) = some (match x.state with
      | .opened => (.opened, some w.time)
      | .opening => (.opening, none)
      | _ => (.waiting, none))
    ∧ ((v.run i).bind fun r => r.entry? z) = some (match x.state with
        | .closing => { x with closeCause :=
            if x.closeCause = some .suspend then some .withdraw else x.closeCause }
        | _ => { x with
            delivered := (x.credit w.time (w.demandOf z)).delivered, state := .withdrawn,
            openSince := none, completion := none, closeCause := none })
    ∧ (v.zone z).runSlot = some 0
    ∧ (∀ y, (v.zone y).valve = (w.zone y).valve)
    ∧ (x.state = .opened → ∃ k, (v.zone z).cmd = some k ∧ k.kind = .openValve ∧ k.renewal = true
        ∧ k.number = w.cmdNumber)
    ∧ (x.state ≠ .opened → (v.zone z).cmd = (w.zone z).cmd)
    ∧ (x.state = .waiting ∨ x.state = .closing → v.offer = true)

/-- A completion deadline that is reached: the entry has its target and closes, cause COMPLETE, and VCU
sends a CLOSE. -/
def Obligations.CompletionDeadlineClosesValve : Prop :=
  ∀ (s : State) (i : SlotIx) (z : ZoneIx) (r : Run) (e : RunEntry) (d target : Nat),
    i ≠ 0 → s.works.run i = some r → r.entry? z = some e → e.state = .opened →
    e.target = some target → e.completion = some d → (r.state = .opening ∨ r.state = .flowing) →
    (s.works.zone z).valve = .opened → s.NoWorkInHand → d ≤ s.works.time →
    ∃ t r', exec (.completionDeadline i.val z.val) s = .next t
      ∧ t.works.run i = some r'
      ∧ r'.entries = r.entries.map (fun x => if x.zone = z then
          { x with
            delivered := x.target.getD 0, state := .closing, openSince := none,
            completion := none, closeCause := some .complete } else x)
      ∧ (t.works.zone z).valve = .closing
      ∧ (∃ c, (t.works.zone z).cmd = some c ∧ c.kind = .closeValve ∧ c.number = s.works.cmdNumber
          ∧ c.attempts = 1 ∧ c.deadline = some (after s.works.time s.works.site.ackWait))
      ∧ t.works.cmdNumber = s.works.cmdNumber + 1
      ∧ (∀ y, y ≠ z → (t.works.zone y).valve = (s.works.zone y).valve)
      ∧ (∀ j, j ≠ i → t.works.run j = s.works.run j)

/-- A flow-confirm deadline that is reached sets FLOW_FAULT.  The frost run flows on without it.  An
irrigation run goes to CLOSING with cause FAULT: its OPEN entries, credited, and its OPENING ones go to
CLOSING with cause FAULT and reason FLOW, its WAITING ones become WITHDRAWN, and with none left active it
is FAULTED at once.  Before its time the command changes nothing, which is the model's choice (log 2);
that the entries change before the run, which the notices show, is its choice too (log 32). -/
def Obligations.FlowConfirmDeadlineFaultsRun : Prop :=
  ∀ (s : State) (i : SlotIx) (r : Run) (d : Nat), s.works.run i = some r →
    r.flowDeadline = some d →
    (d ≤ s.works.time → i = 0 → s.NoWorkInHand →
      ∃ t, exec (.flowConfirmDeadline i.val) s = .next t
        ∧ t.works.latches = { s.works.latches with
            flowFault := true, noticeGap := t.works.latches.noticeGap }
        ∧ t.works.run 0 = some { r with flowDeadline := none }
        ∧ t.works.zones = s.works.zones ∧ (∀ j, j ≠ 0 → t.works.run j = s.works.run j))
    ∧ (d ≤ s.works.time → i ≠ 0 →
      exec (.flowConfirmDeadline i.val) s = .next ((s.onWorks fun w =>
        ((w.flowFaultNotice i r).modRun i fun x => { x with flowDeadline := none }).rdpEvent
          fun v => v.faultRun i).finish))
    ∧ (i ≠ 0 → r.state = .flowing → ∀ (ended : List RunEntry),
        ended = r.entries.map (fun x =>
          if r.entries.any (fun y => y.zone == x.zone && (y.state == .opened || y.state == .opening))
          then { x with
                 delivered := (x.credit s.works.time (s.works.demandOf x.zone)).delivered,
                 state := .closing, openSince := none, completion := none,
                 closeCause := some (.fault .flow) }
          else if r.entries.any (fun y => y.zone == x.zone && y.state == .waiting) then
            { x with state := .withdrawn, openSince := none, completion := none, closeCause := none }
          else x) →
      (s.works.faultRun i).run i = some
        { r with
          entries := ended, gatherDeadline := none, flowDeadline := none,
          state := if ended.any (fun x => x.state.active) then .closing else .faulted,
          closeCause := if ended.any (fun x => x.state.active) then some .fault else none }
      ∧ ∀ x ∈ r.entries, (x.state = .opened ∨ x.state = .opening) →
          (s.works.zone x.zone).valve = .opened → ((s.works.faultRun i).zone x.zone).valve = .closing)
    ∧ (s.works.time < d → exec (.flowConfirmDeadline i.val) s = .next s.finish)

/-- An ack deadline that is reached with attempts left repeats the command under its number, a CLOSE
through URGENT and an OPEN through COMMAND with its limit computed afresh; with none left a CLOSE leaves
the valve STUCK, a renewal ends with a notice, and an OPEN is followed by a CLOSE.  That the
VALVE_FAULT detail repeats the zone and the code of its result are the model's choice (log 9, log 11), and so is
that nothing changes before the time (log 2); that RDP acts before the notice is its reading (DEDUCED, log 32). -/
def Obligations.AckDeadlineRepeatsCommand : Prop :=
  ∀ (s : State) (z : ZoneIx) (c : Cmd) (d : Nat) (id : NodeId), (s.works.zone z).cmd = some c →
    c.deadline = some d → (s.works.cfg z).valveNode = some id →
    let again := fun limited : Bool => { s.works.zone z with
      cmd := some { c with
        attempts := c.attempts + 1, limited := limited,
        deadline := some (after s.works.time s.works.site.ackWait) } }
    (d ≤ s.works.time → c.kind = .closeValve → c.attempts < s.works.site.attempts →
        s.works.urgent.length < 8 →
      ∃ t, exec (.ackDeadline z.val) s = .next t
        ∧ t.works.zone z = again c.limited
        ∧ (∀ y, y ≠ z → t.works.zone y = s.works.zone y)
        ∧ t.works.urgent = s.works.urgent ++ [s.works.composed 0x07 id [0x02, c.number, 0, 0]]
        ∧ t.works.runs = s.works.runs ∧ t.works.line = s.works.line)
    ∧ (d ≤ s.works.time → c.kind = .openValve → c.attempts < s.works.site.attempts →
        s.works.command.length ≤ 14 →
      ∃ t, exec (.ackDeadline z.val) s = .next t
        ∧ t.works.zone z = again (c.limited || decide (0 < s.works.openLimit z))
        ∧ (∀ y, y ≠ z → t.works.zone y = s.works.zone y)
        ∧ t.works.command = s.works.command ++
            [s.works.composed 0x07 id ([0x01, c.number] ++ be16 (s.works.openLimit z))]
        ∧ t.works.runs = s.works.runs ∧ t.works.line = s.works.line)
    ∧ (d ≤ s.works.time → c.kind = .closeValve → s.works.site.attempts ≤ c.attempts →
      exec (.ackDeadline z.val) s = .next ((s.onWorks fun w =>
        ((((w.setCmd z none).setValve z .stuck).rdpEvent fun v => v.valveStuck z).notice .valveFault
          (byte z.val) ([byte z.val] ++ beId id ++ [0, 2, c.number]))).finish))
    ∧ (d ≤ s.works.time → c.kind = .openValve → c.renewal = true → s.works.site.attempts ≤ c.attempts →
      exec (.ackDeadline z.val) s = .next ((s.onWorks fun w =>
        (w.setCmd z none).notice .valveFault (byte z.val) [2, 2]).finish))
    ∧ (d ≤ s.works.time → c.kind = .openValve → c.renewal = false → s.works.site.attempts ≤ c.attempts →
      ∀ i r x, s.Opens z i r x →
      ∃ t, exec (.ackDeadline z.val) s = .next t ∧ s.OpenFailed t z i r .noAck)
    ∧ (s.works.time < d → exec (.ackDeadline z.val) s = .next s.finish)

/-- A matching acknowledgement ends its command.  DONE to an OPEN leaves the valve OPEN and its entry OPEN,
timed from now, with a renewal where the entry was carried into the frost run; to a renewal, nothing else;
to a CLOSE, the valve CLOSED before RDP acts on it, or OPENING again where its follow-on holds.  LOCAL or
FAULT faults the entry of an OPEN and closes the valve, ends a renewal with a notice, and leaves the valve
of a CLOSE STUCK.  An acknowledgement of another number is stale.  That the VALVE_FAULT
detail repeats the zone and the code of its result are the model's choice (log 9, log 11); that RDP acts before the notice is its reading (DEDUCED, log
32). -/
def Obligations.ValveAckEndsCommand : Prop :=
  ∀ (s : State) (h : HandOff) (rest : List HandOff) (f : FieldFrame) (z : ZoneIx) (c : Cmd)
    (number result : Byte),
    s.vcuQueue = h :: rest → fieldFrame? h.frame = some f → f.payload = [number, result] →
    s.works.valveZone? f.src = some z → (s.works.zone z).cmd = some c →
    let after_ := fun g : Works → Works =>
      exec .valveAck s = .next (State.finish (State.onWorks { s with vcuQueue := rest } g))
    (c.number ≠ number → exec .valveAck s = .next (State.finish { s with vcuQueue := rest }))
    ∧ (c.number = number → result = 0x01 →
      (c.kind = .openValve → c.renewal = true →
        ∃ t, exec .valveAck s = .next t
          ∧ t.works.zone z = { s.works.zone z with cmd := none }
          ∧ (∀ y, y ≠ z → t.works.zone y = s.works.zone y)
          ∧ t.works = { s.works with zones := t.works.zones, touched := [] }
          ∧ s.SameAround { t with vcuQueue := s.vcuQueue } ∧ t.vcuQueue = rest)
      ∧ (c.kind = .openValve → c.renewal = false → ∀ i r x, s.Opens z i r x →
        ∃ t r', exec .valveAck s = .next t ∧ t.vcuQueue = rest
          ∧ (t.works.zone z).valve = .opened
          ∧ t.works.run i = some r'
          ∧ r'.entries = r.entries.map (fun y => if y.zone = z then
              { y with
                state := .opened, openSince := some s.works.time, closeCause := none,
                completion := y.target.map fun target => after s.works.time
                  (divUp ((target - y.delivered) * 60) (s.works.demandOf z)) } else y)
          ∧ (i = 0 → (t.works.zone z).frost = if (s.works.zone z).frost = .warning then .protecting
              else (s.works.zone z).frost)
          ∧ (c.limited = false → (t.works.zone z).cmd = none)
          ∧ (c.limited = true → i = 0 → ∃ k, (t.works.zone z).cmd = some k ∧ k.kind = .openValve
              ∧ k.renewal = true ∧ k.number = s.works.cmdNumber)
          ∧ ∀ y, y ≠ z → (t.works.zone y).valve = (s.works.zone y).valve)
      ∧ (c.kind = .closeValve → c.followOn = false →
        after_ fun w => ((w.setCmd z none).setValve z .closed).rdpEvent fun v => v.closeReport z)
      ∧ (c.kind = .closeValve → c.followOn = true →
        (s.works.frostOpening z = true → s.works.nodeReady f.src = true →
            s.works.demandOf z ≤ (s.works.setValve z .closed).freeCapacity →
          ∃ t k, exec .valveAck s = .next t ∧ t.vcuQueue = rest ∧ t.works.runs = s.works.runs
            ∧ (t.works.zone z).valve = .opening ∧ (t.works.zone z).cmd = some k
            ∧ k.kind = .openValve ∧ k.renewal = false ∧ k.followOn = false
            ∧ k.number = s.works.cmdNumber
            ∧ (∀ y, y ≠ z → t.works.zone y = s.works.zone y))
        ∧ (s.works.frostOpening z = false ∨ s.works.nodeReady f.src = false
            ∨ (s.works.setValve z .closed).freeCapacity < s.works.demandOf z →
          after_ fun w => ((w.setCmd z none).setValve z .closed).rdpEvent fun v => v.followOnLost z)
        ∧ (s.works.followOnLost z).offer = true
        ∧ ∀ r, s.works.frostRun? = some r → s.works.frostOpening z = true →
          ∃ r', (s.works.followOnLost z).run 0 = some r'
            ∧ r'.entries = r.entries.map (fun y => if y.zone = z then
                { y with
                  state := .waiting, openSince := none, completion := none, closeCause := none }
                else y)))
    ∧ ∀ q, c.number = number → (result = 0x02 ∧ q = .localFault ∨ result = 0x03 ∧ q = .fault) →
      (c.kind = .openValve → c.renewal = true → after_ fun w =>
        (w.setCmd z none).notice .valveFault (byte z.val) [2, q.code])
      ∧ (c.kind = .closeValve → after_ fun w =>
        (((w.setCmd z none).setValve z .stuck).rdpEvent fun v => v.valveStuck z).notice .valveFault
          (byte z.val) ([byte z.val] ++ beId f.src ++ [0, q.code, number]))
      ∧ (c.kind = .openValve → c.renewal = false → ∀ i r x, s.Opens z i r x →
        ∃ t, exec .valveAck s = .next t ∧ t.vcuQueue = rest ∧ s.OpenFailed t z i r q)

/-- The drain deadline is dropped and DRAIN CLOSE requested behind the pulses already there.  Before its
time the command changes nothing, which is the model's choice (log 2). -/
def Obligations.DrainDeadlineClosesDrain : Prop :=
  ∀ (s : State) (d : Nat), s.works.line.drainDeadline = some d →
    (d ≤ s.works.time → ∀ p, s.works.line.pulse = some p →
      exec .drainDeadline s = .next (State.finish
        { s with works := { s.works with
            line := { s.works.line with
              drainDeadline := none,
              waiting := s.works.line.waiting ++ [{ output := .drain, on := false }] } } }))
    ∧ (d ≤ s.works.time → s.works.line.pulse = none → s.works.line.waiting = [] →
      exec .drainDeadline s = .next (State.finish
        { s with works := { s.works with
            line := { s.works.line with
              drainDeadline := none,
              pulse := some { output := .drain, on := false, lengths := s.works.site.drain,
                              phase := .lead, passed := false } } } }))
    ∧ (s.works.time < d → exec .drainDeadline s = .next s.finish)

/-- Lead and drive: the coil pin of the pulse is HIGH in the drive alone, and the believed position
changes at its end, unless a reset has passed over the pulse. -/
def Obligations.PulseLeadAndDrive : Prop :=
  ∀ (s : State) (p : Pulse), s.works.line.pulse = some p →
    (p.phase = .lead →
      ∃ t, exec .pulseLeadEnd s = .next t
        ∧ t.works = { s.works with
            line := { s.works.line with pulse := some { p with phase := .drive } }, touched := [] }
        ∧ t.works.line.coil p.output p.on = true ∧ s.SameAround t)
    ∧ (p.phase = .drive → p.passed = false →
      ∃ t, exec .pulseDriveEnd s = .next t
        ∧ t.works = { s.works with
            line := { s.works.line with
              pulse := some { p with phase := .tail },
              pumpOn := if p.output = .pump then p.on else s.works.line.pumpOn,
              masterOpen := if p.output = .master then p.on else s.works.line.masterOpen,
              drainOpen := if p.output = .drain then p.on else s.works.line.drainOpen },
            touched := [] }
        ∧ (∀ o on, t.works.line.coil o on = false) ∧ s.SameAround t)
    ∧ (p.phase = .drive → p.passed = true →
      exec .pulseDriveEnd s = .next (State.finish
        { s with works := { s.works with
            line := { s.works.line with pulse := some { p with phase := .tail } } } }))

/-- The end of a pulse moves the main line: here MASTER OPEN in PRIMING, PUMP ON in READY, MASTER CLOSE
in STOPPING and DRAIN CLOSE in DRAINING, with the gap of the pulse begun.  At the end of the gap the
first pending pulse begins with the lengths in force, which for a safe pulse is the model's choice (log 47),
or none is in progress. -/
def Obligations.PulseEndAndGap : Prop :=
  (∀ (s : State) (p : Pulse), s.works.line.pulse = some p → p.phase = .tail →
    (p.passed = true →
      exec .pulseEnd s = .next (State.finish
        { s with works := { s.works with
            line := { s.works.line with pulse := some { p with phase := .gap } } } }))
    ∧ (p.passed = false → s.works.line.state = .stopping → p.output = .master → p.on = false →
      s.works.line.demand = false → s.works.line.frostFlowed = false →
      exec .pulseEnd s = .next (State.finish
        { s with works := { s.works with
            line := { s.works.line with
              state := .idle, pulse := some { p with phase := .gap }, frostFlowed := false } } }))
    ∧ (p.passed = false → s.works.line.state = .draining → p.output = .drain → p.on = false →
      s.works.line.demand = false →
      exec .pulseEnd s = .next (State.finish
        { s with works := { s.works with
            line := { s.works.line with
              state := .idle, pulse := some { p with phase := .gap }, frostFlowed := false } } }))
    ∧ (p.passed = false → s.works.line.state = .ready → p.output = .pump → p.on = true →
      s.works.line.demand = true →
      ∃ t, exec .pulseEnd s = .next t
        ∧ t.works.line = { s.works.line with
            state := .running, pulse := some { p with phase := .gap }, pumpStart := false }
        ∧ s.works.SameBase t.works ∧ t.works.zones = s.works.zones
        ∧ ∀ i r, s.works.run i = some r → r.state = .flowing → s.works.site.meter ≠ none →
            t.works.run i = some
              { r with flowDeadline := some (after s.works.time s.works.site.flowLimit) })
    ∧ (p.passed = false → s.works.line.state = .priming → p.output = .master → p.on = true →
      s.works.line.demand = true →
      ∃ t, exec .pulseEnd s = .next t
        ∧ t.works.line = { s.works.line with
            state := .ready, pulse := some { p with phase := .gap } }
        ∧ s.works.SameBase t.works ∧ t.works.runs = s.works.runs
        ∧ ∀ z, (t.works.zone z).valve = (s.works.zone z).valve))
  ∧ ∀ (s : State) (p : Pulse), s.works.line.pulse = some p → p.phase = .gap →
    (s.works.line.waiting = [] →
      exec .pulseGapEnd s = .next (State.finish
        { s with works := { s.works with line := { s.works.line with pulse := none } } }))
    ∧ ∀ q rest, s.works.line.waiting = q :: rest →
      exec .pulseGapEnd s = .next (State.finish
        { s with works := { s.works with
            line := { s.works.line with
              pulse := some { output := q.output, on := q.on,
                              lengths := s.works.site.lengths q.output, phase := .lead,
                              passed := false },
              waiting := rest } } })

/-! ### Frames of groups of commands -/

/-- Deadlines and pulses of zones, runs and the main line leave the nodes, the base records and all the
part around the shared records as they were. -/
def Obligations.RunCommandsKeepTheRest : Prop :=
  ∀ (s t : State) (c : Instr),
    (c = .alertTimerExpiry ∨ c = .drainDeadline ∨ c = .pulseLeadEnd ∨ c = .pulseDriveEnd
      ∨ c = .pulseEnd ∨ c = .pulseGapEnd ∨ (∃ n, c = .gatherDeadline n ∨ c = .flowConfirmDeadline n
      ∨ c = .ackDeadline n ∨ c = .thawDeadline n) ∨ ∃ n m, c = .completionDeadline n m) →
    exec c s = .next t →
    s.SameAround t ∧ s.works.SameBase t.works ∧ t.works.roster = s.works.roster
      ∧ t.works.ctxs = s.works.ctxs

/-- Deadlines of nodes and blocks that take a frame leave the base records as they were, and around
the shared records change their own queue alone. -/
def Obligations.NodeCommandsKeepTheRest : Prop :=
  ∀ (s t : State) (c : Instr), exec c s = .next t →
    ((∃ n, c = .silenceDeadline n ∨ c = .lossDeadline n ∨ c = .sheetDeadline n) →
      s.SameAround t ∧ s.works.SameBase t.works)
    ∧ (c = .join ∨ c = .sheet ∨ c = .earlyTraffic →
      s.SameAround { t with enuQueue := s.enuQueue } ∧ s.works.SameBase t.works
        ∧ (t.enuQueue = s.enuQueue ∨ t.enuQueue = s.enuQueue.tail))
    ∧ (c = .valveAck → s.SameAround { t with vcuQueue := s.vcuQueue } ∧ s.works.SameBase t.works
        ∧ t.vcuQueue = s.vcuQueue.tail ∧ t.works.roster = s.works.roster
        ∧ t.works.ctxs = s.works.ctxs)

/-! ### Requests -/

/-- A reply takes the reserved slot of the uplink, or goes to COMMAND for the handheld. -/
def Obligations.RepliesLeaveByTheirPort : Prop :=
  ∀ (s : State) (t : Taken) (a : Answer),
    s.answer .uplink t a =
      { s with works := { s.works with
          upQueue := s.works.upQueue ++ [uplinkFrame 0x02 t.echo ([t.code, a.result.code] ++ a.data)],
          reserved := s.works.reserved - 1 } }
    ∧ (s.works.command.length < 16 →
        s.answer .field t a =
          { s with works := { s.works with
              command := s.works.command ++
                [s.works.composed 0x0B t.src ([t.echo, t.code, a.result.code] ++ a.fieldData)],
              txSeq := s.works.txSeq + 1 } })
    ∧ (16 ≤ s.works.command.length → s.answer .field t a = s)
    ∧ a.fieldData.length ≤ 37

/-- Reads answer from the state as it stands and change nothing; a row, window or slot that does not exist
gives RANGE and an empty slot UNKNOWN.  The codes of the reply items that chapter 11 leaves open are the
model's choice (log 10), and that a channel record is one item is its reading (DEDUCED, log 33). -/
def Obligations.ReadsAnswerAndChangeNothing : Prop :=
  ∀ (s : State) (port : Port) (t : Taken),
    (s.Asks port t 0x01 [] true →
      exec (.timeRead port) s = .next (s.replied port t (.done [be32 s.works.time])))
    ∧ (∀ e : EntryIx, s.Asks port t 0x0A [byte e.val] true →
      exec (.nodeRead port) s = .next (s.replied port t (.done (State.nodeItems s.works e))))
    ∧ (∀ a b c, s.Asks port t 0x0B [a, b, c] true →
      exec (.nodeProbe port) s =
        .next (s.replied port t (.done (State.probeItems s.works (nodeId a b c)))))
    ∧ (∀ z : ZoneIx, s.Asks port t 0x0D [byte z.val] true →
      exec (.zoneRead port) s = .next (s.replied port t (.done (State.zoneItems s.works z))))
    ∧ (∀ z : Byte, s.Asks port t 0x0D [z] true → 40 ≤ z.toNat →
      exec (.zoneRead port) s = .next (s.replied port t (.refused .range)))
    ∧ (∀ (i : SlotIx) (first : Byte) (r : Run), s.Asks port t 0x11 [byte i.val, first] true →
        first.toNat < 40 → s.works.run i = some r →
      exec (.runRead port) s = .next (s.replied port t
        { result := .done, items := State.runItems s.works i r,
          list := some (((r.entries.drop first.toNat).take 8).map State.entryBytes) }))
    ∧ (∀ i first, s.Asks port t 0x11 [i, first] true → (12 ≤ i.toNat ∨ 40 ≤ first.toNat) →
      exec (.runRead port) s = .next (s.replied port t (.refused .range)))
    ∧ (∀ (i : SlotIx) (first : Byte), s.Asks port t 0x11 [byte i.val, first] true →
        first.toNat < 40 → s.works.run i = none →
      exec (.runRead port) s = .next (s.replied port t (.refused .unknown)))
    ∧ (∀ i first, s.Asks port t 0x12 [i, first] true → (2 ≤ i.toNat ∨ 40 ≤ first.toNat) →
      exec (.windowRead port) s = .next (s.replied port t (.refused .range)))
    ∧ (∀ (i : WinIx) (first : ZoneIx), s.Asks port t 0x12 [byte i.val, byte first.val] true →
        s.windows[i].isOpen = false →
      exec (.windowRead port) s = .next (s.replied port t
        { result := .done, items := State.windowItems i s.windows[i],
          list := some ((State.windowZones first.val).map fun z =>
            State.accBytes z s.windows[i].acc[z]) }))
    ∧ (∀ (i : WinIx) (first : ZoneIx), s.Asks port t 0x12 [byte i.val, byte first.val] true →
        s.windows[i].isOpen = true →
      exec (.windowRead port) s = .next (s.replied port t (.refused .state)))
    ∧ (∀ table row items, s.Asks port t 0x09 [table, row] true →
        s.activeItems table row.toNat = some items →
      exec (.tableRead port) s = .next (s.replied port t (.done items)))
    ∧ (∀ table row, s.Asks port t 0x09 [table, row] true → s.activeItems table row.toNat = none →
      exec (.tableRead port) s = .next (s.replied port t (.refused .range)))
    ∧ (∀ (name : TableName) row items, s.Asks port t 0x06 [name.code, row] false →
        s.bank.rowItems name row.toNat = some items →
      exec (.stageRead port) s = .next (s.replied port t (.done items)))

/-- TIME.SET and START are taken in HALTED and refused STATE in RUNNING; RESET is answered in either and
is the last request taken. -/
def Obligations.TimeSetStartAndReset : Prop :=
  ∀ (s : State) (port : Port) (t : Taken),
    (∀ a b c d, s.Asks port t 0x02 [a, b, c, d] false → s.works.device = .halted →
      exec (.timeSet port) s = .next (State.finish (State.answer
        { s.dropRequest port with
          inFlight := s.inFlight.map fun f =>
            { f with expiry := after (nat32 a b c d) (f.expiry - s.works.time) },
          works := { s.works with time := nat32 a b c d } } port t (.done []))))
    ∧ (∀ a b c d, s.Asks port t 0x02 [a, b, c, d] false → s.works.device = .running →
      exec (.timeSet port) s = .next (s.replied port t (.refused .state)))
    ∧ (s.Asks port t 0x03 [] false → s.works.device = .running →
      exec (.start port) s = .next (s.replied port t (.refused .state)))
    ∧ (s.Asks port t 0x03 [] false → s.works.device = .halted →
      ∃ u, exec (.start port) s =
          .next (State.finish (State.answer u port t (.done [be32 s.works.time])))
        ∧ u.works.device = .running ∧ u.works.time = s.works.time
        ∧ u.works.tables = s.works.tables ∧ u.works.alert = false ∧ u.works.alertTimer = none
        ∧ u.works.zones = s.works.zones ∧ u.works.runs = s.works.runs
        ∧ u.works.cmdNumber = s.works.cmdNumber + 1
        ∧ (s.works.urgent.length < 8 → u.works.urgent = s.works.urgent ++
            [s.works.composed 0x07 0xFFFFFF#24 [0x02, s.works.cmdNumber, 0, 0]])
        ∧ (∀ e, u.works.entry e = if (s.works.entry e).state = .active then
            { s.works.entry e with lastHeard := s.works.time, frames := 0, muteCloses := 0 }
            else s.works.entry e)
        ∧ u.windows[0] =
          { isOpen := true, openedAt := some s.works.time,
            closeDeadline := some (after s.works.time s.works.site.windowPeriod),
            period := some s.works.site.windowPeriod, closedAt := s.windows[0].closedAt,
            acc := Vector.replicate 40 Acc.cleared }
        ∧ u.windows[1] = s.windows[1] ∧ u.folds[0] = some s.works.foldRecord
        ∧ u.bank = s.bank ∧ u.watch = s.watch ∧ u.rxFifo = s.rxFifo ∧ u.pending = s.pending)
    ∧ (s.Asks port t 0x04 [] false →
      exec (.reset port) s = .next (State.finish
        (State.answer { s.dropRequest port with resetAnswered := true } port t (.done []))))
    ∧ (s.resetAnswered = true → s.nextRequest port = none)

/-- STAGE.WRITE puts a row into the bank, or is refused for its row, a pending commit or a field.  That a
RANGE for a row carries no field index is the model's reading (DEDUCED, log 37). -/
def Obligations.StageWritePutsRow : Prop :=
  ∀ (s : State) (port : Port) (t : Taken) (name : TableName) (row : Byte) (fields : Bytes),
    s.Asks port t 0x05 (name.code :: row :: fields) false → fields.length = name.rowBytes →
    (name.rows ≤ row.toNat →
      exec (.stageWrite port) s = .next (s.replied port t (.refused .range)))
    ∧ (row.toNat < name.rows → s.commitPending = true →
      exec (.stageWrite port) s = .next (s.replied port t (.refused .commitPending)))
    ∧ (∀ b ranges, row.toNat < name.rows → s.commitPending = false →
        s.bank.putRow name row.toNat fields = some (b, ranges) →
      (firstFault ranges = none →
        exec (.stageWrite port) s = .next (State.finish
          (State.answer { s.dropRequest port with bank := b } port t (.done []))))
      ∧ ∀ i, firstFault ranges = some i →
        exec (.stageWrite port) s = .next (s.replied port t
          { result := .range, items := [[byte i]], list := none }))

/-- STAGE.COMMIT validates at once in HALTED and waits for the close in RUNNING; STAGE.DISCARD makes the
bank equal to the active tables.  That reason, table and row follow only a failure, and which row CAPACITY
and ID name, is the model's choice (log 10), and so is the order of the blocks in an activation (log 8). -/
def Obligations.CommitAndDiscard : Prop :=
  ∀ (s : State) (port : Port) (t : Taken),
    (s.Asks port t 0x07 [] false →
      (s.commitPending = true →
        exec (.stageCommit port) s = .next (s.replied port t (.refused .commitPending)))
      ∧ (s.commitPending = false → s.works.device = .running →
        exec (.stageCommit port) s = .next (State.finish
          (State.answer { s.dropRequest port with commitPending := true } port t (.done [[2]]))))
      ∧ (s.commitPending = false → s.works.device = .halted → s.works.validate s.bank = none →
        exec (.stageCommit port) s = .next
            (s.repliedAfter port t (fun w => w.activate s.bank) (.done [[0]]))
          ∧ (s.works.activate s.bank).tables = s.bank)
      ∧ ∀ f, s.commitPending = false → s.works.device = .halted →
          s.works.validate s.bank = some f →
        exec (.stageCommit port) s = .next (s.replied port t
          (.done [[1], [f.reason.code], [f.table.code], [byte f.row]])))
    ∧ (s.Asks port t 0x08 [] false →
      exec (.stageDiscard port) s = .next (State.finish (State.answer
        { s.dropRequest port with bank := s.works.tables, commitPending := false } port t
        (.done [[if s.commitPending then 1 else 0]]))))

/-- The conditional writes of the roster: refused STALE for another generation, else carried out with
the generation advanced once. -/
def Obligations.NodeWritesAreConditional : Prop :=
  ∀ (s : State) (port : Port) (t : Taken) (e : EntryIx) (g1 g0 : Byte),
    (∀ op rest, (op = 0x00 ∧ rest.length = 5 ∨ op = 0x01 ∧ rest.length = 1 ∨ op = 0x02 ∧ rest = []
          ∨ op = 0x03 ∧ rest = []) →
        s.Asks port t 0x0C ([byte e.val, g1, g0, op] ++ rest) false →
        (s.works.entry e).gen ≠ word16 g1 g0 →
      (op = 0x00 → exec (.reserve port) s =
          .next (s.replied port t (.stale (s.works.entry e).gen)))
      ∧ (op = 0x01 → exec (.assign port) s =
          .next (s.replied port t (.stale (s.works.entry e).gen)))
      ∧ (op = 0x02 → exec (.release port) s =
          .next (s.replied port t (.stale (s.works.entry e).gen)))
      ∧ (op = 0x03 → exec (.restore port) s =
          .next (s.replied port t (.stale (s.works.entry e).gen))))
    ∧ (∀ i2 i1 i0 r z role zone, s.Asks port t 0x0C [byte e.val, g1, g0, 0x00, i2, i1, i0, r, z] false →
        (s.works.entry e).gen = word16 g1 g0 → role? r.toNat = some role →
        State.zoneArg? z = some zone → s.works.sourceValid (nodeId i2 i1 i0) = true →
        (s.works.entry e).state = .free →
        (∀ k : Fin 4, WinRow.covers s.works.tables.windows[k] (nodeId i2 i1 i0) = false) →
        s.works.idTaken (nodeId i2 i1 i0) = false →
      exec (.reserve port) s = .next (s.repliedAfter port t
          (fun w => w.reserveEntry e (nodeId i2 i1 i0) role zone)
          (.done [be16 ((s.works.entry e).gen + 1).toNat]))
        ∧ s.works.OnlyEntry (s.works.reserveEntry e (nodeId i2 i1 i0) role zone) e
          { Entry.free ((s.works.entry e).gen + 1) with
            id := nodeId i2 i1 i0, role := role, zone := zone, state := .reserved })
    ∧ (∀ z zone, s.Asks port t 0x0C [byte e.val, g1, g0, 0x01, z] false →
        (s.works.entry e).gen = word16 g1 g0 → State.zoneArg? z = some zone →
        (s.works.entry e).state ≠ .free → (s.works.entry e).zone ≠ zone →
      exec (.assign port) s = .next (s.repliedAfter port t (fun w => w.assignEntry e zone)
          (.done [be16 ((s.works.entry e).gen + 1).toNat]))
        ∧ s.works.OnlyEntry (s.works.assignEntry e zone) e
          { s.works.entry e with zone := zone, gen := (s.works.entry e).gen + 1 })
    ∧ (s.Asks port t 0x0C [byte e.val, g1, g0, 0x02] false →
        (s.works.entry e).gen = word16 g1 g0 → (s.works.entry e).state ≠ .free →
      exec (.release port) s = .next (s.repliedAfter port t (fun w => w.releaseEntry e)
          (.done [be16 ((s.works.entry e).gen + 1).toNat]))
        ∧ (s.works.releaseEntry e).entry e = Entry.free ((s.works.entry e).gen + 1)
        ∧ ∀ x, x ≠ e → (s.works.releaseEntry e).entry x = s.works.entry x)
    ∧ (s.Asks port t 0x0C [byte e.val, g1, g0, 0x03] false →
        (s.works.entry e).gen = word16 g1 g0 →
        ((s.works.entry e).state = .quarantined ∨ (s.works.entry e).state = .muted) →
        0 < (s.works.entry e).interval → s.works.time < 0xFFFFFFFF →
      exec (.restore port) s = .next (s.repliedAfter port t (fun w => w.restoreEntry e)
          (.done [be16 ((s.works.entry e).gen + 1).toNat]))
        ∧ s.works.OnlyEntry (s.works.restoreEntry e) e
          { s.works.entry e with
            state := .active, badStreak := 0, muteCloses := 0, frames := 0,
            lastHeard := s.works.time, gen := (s.works.entry e).gen + 1 })

/-- ZONE.CONTROL_IF: SET writes both controls of a CLEAR zone and advances the generation if either
changes; CLEAR_VALVE is for STUCK valves alone; both are conditional.  That RDP's
admission, FRW's placement and VALVE_CLEARED come in this order is the model's reading (DEDUCED, log
32). -/
def Obligations.ZoneControlsAreConditional : Prop :=
  ∀ (s : State) (port : Port) (t : Taken) (z : ZoneIx) (g1 g0 : Byte),
    (∀ a p, s.Asks port t 0x0E [byte z.val, g1, g0, 0x00, a, p] false → a.toNat ≤ 2 → p.toNat ≤ 2 →
        (s.works.zone z).gen ≠ word16 g1 g0 →
      exec (.zoneControlIfSet port) s = .next (s.replied port t (.stale (s.works.zone z).gen)))
    ∧ (∀ a p auto prot, s.Asks port t 0x0E [byte z.val, g1, g0, 0x00, a, p] false →
        (s.works.zone z).gen = word16 g1 g0 → (s.works.zone z).frost = .clear →
        s.works.touched = [] →
        (a = 0 ∧ auto = false ∨ a = 1 ∧ auto = true ∨ a = 2 ∧ auto = (s.works.zone z).auto) →
        (p = 0 ∧ prot = false ∨ p = 1 ∧ prot = true ∨ p = 2 ∧ prot = (s.works.zone z).protect) →
      ∃ v gen', exec (.zoneControlIfSet port) s =
          .next (s.repliedAfter port t (fun _ => v) (.done [be16 gen'.toNat]))
        ∧ gen' = (if auto = (s.works.zone z).auto ∧ prot = (s.works.zone z).protect
            then (s.works.zone z).gen else (s.works.zone z).gen + 1)
        ∧ v.zone z = { s.works.zone z with auto := auto, protect := prot, gen := gen' }
        ∧ (∀ y, y ≠ z → v.zone y = s.works.zone y)
        ∧ { v with zones := s.works.zones, touched := [] } = s.works)
    ∧ (s.Asks port t 0x0E [byte z.val, g1, g0, 0x01] false →
      ((s.works.zone z).gen ≠ word16 g1 g0 →
        exec (.clearValve port) s = .next (s.replied port t (.stale (s.works.zone z).gen)))
      ∧ ((s.works.zone z).gen = word16 g1 g0 → (s.works.zone z).valve ≠ .stuck →
        exec (.clearValve port) s = .next (s.replied port t (.refused .inUse)))
      ∧ ((s.works.zone z).gen = word16 g1 g0 → (s.works.zone z).valve = .stuck →
        exec (.clearValve port) s = .next (s.repliedAfter port t (fun w =>
          (((w.setValve z .closed).rdpEvent Works.offerAdmission).protectionPossible z .valve).notice
            .valveCleared (byte z.val) [1])
          (.done [be16 ((s.works.clearValve z).zone z).gen.toNat]))))

/-- RUN.OPEN creates a QUEUED run of its zones and offers admission; RUN.CANCEL ends a QUEUED run at
once; both are refused STATE in HALTED. -/
def Obligations.RunOpenAndCancel : Prop :=
  ∀ (s : State) (port : Port) (t : Taken),
    (∀ items args, runItems? args = some items → s.Asks port t 0x0F args true →
      (s.works.device = .halted →
        exec (.runOpen port) s = .next (s.replied port t (.refused .state)))
      ∧ ∀ zs checked slot, s.works.device = .running → State.runZones? items = some zs →
          State.checkRunZones s.works zs = .ok checked →
          s.works.demandSum (checked.map Prod.fst) ≤ s.works.site.capacity →
          s.works.newSlot? = some slot →
        exec (.runOpen port) s = .next (s.repliedAfter port t (fun w => w.rdpEvent fun v =>
            (v.createRun slot .irrigation .request .queued none
              (checked.map fun i => RunEntry.waiting i.1 (some i.2))).offerAdmission)
            (.done [[byte slot.val], be16 s.works.runNumber.toNat]))
          ∧ (s.works.createRun slot .irrigation .request .queued none
              (checked.map fun i => RunEntry.waiting i.1 (some i.2))).run slot = some
            { number := s.works.runNumber, serial := s.works.runSerial, kind := .irrigation,
              origin := .request, state := .queued, created := s.works.time,
              gatherDeadline := none, flowDeadline := none, closeCause := none,
              entries := checked.map fun i => RunEntry.waiting i.1 (some i.2) : Run })
    ∧ (∀ (i : SlotIx) n1 n0 may, s.Asks port t 0x10 [byte i.val, n1, n0] may →
        (may = true → i ≠ 0) →
      (s.works.device = .halted →
        exec (.runCancel port) s = .next (s.replied port t (.refused .state)))
      ∧ (s.works.device = .running → s.works.run i = none →
        exec (.runCancel port) s = .next (s.replied port t (.refused .unknown)))
      ∧ ∀ r, s.works.device = .running → i ≠ 0 → s.works.run i = some r →
          r.number = word16 n1 n0 → r.state = .queued → s.NoWorkInHand →
        ∃ v r', exec (.runCancel port) s = .next (s.repliedAfter port t (fun _ => v) (.done []))
          ∧ v.run i = some r' ∧ r'.state = .cancelled ∧ r'.number = r.number
          ∧ (∀ j, j ≠ i → v.run j = s.works.run j)
          ∧ ∀ z, (v.zone z).valve = (s.works.zone z).valve)

/-- PASS.SEND queues a frame of good length that moves no valve VCU keeps, with a new check. -/
def Obligations.PassSendQueuesFrame : Prop :=
  ∀ (s : State) (port : Port) (t : Taken) (frame : Bytes), s.Asks port t 0x13 frame false →
    (fieldLengthGood frame = false →
      exec (.passSend port) s = .next (s.replied port t (.refused .malformed)))
    ∧ ∀ f, fieldLengthGood frame = true → fieldFrame? frame = some f →
      (State.movesValve s.works f = true →
        exec (.passSend port) s = .next (s.replied port t (.refused .inUse)))
      ∧ (State.movesValve s.works f = false → 16 ≤ s.works.pass.length →
        exec (.passSend port) s = .next (s.replied port t (.refused .full)))
      ∧ (State.movesValve s.works f = false → s.works.pass.length < 16 →
        exec (.passSend port) s = .next (s.repliedAfter port t (fun w =>
          { w with pass := w.pass ++ [sealFrame (frame.take (frame.length - 2))] }) (.done [])))

/-- WATCH.SET, WATCH.CLEAR, NOTICE.MASK and STATUS.READ write what they name and nothing else.  That bits 3
to 7 of the flags of WATCH.SET are not looked at is the model's choice (log 27), and so are the items that
NOTICE.MASK and STATUS.READ return (log 10). -/
def Obligations.DeviceRequestsWriteWhatTheyName : Prop :=
  ∀ (s : State) (port : Port) (t : Taken),
    (∀ (i : Fin 4) flags n2 n1 n0 k, s.Asks port t 0x14 [byte i.val, flags, n2, n1, n0, k] false →
      exec (.watchSet port) s = .next (State.finish (State.answer
        { s.dropRequest port with
          watch := s.watch.set i.val
            { armed := true, id := if flags.getLsbD 0 then none else some (nodeId n2 n1 n0),
              kind := if flags.getLsbD 1 then none else some k, oneShot := flags.getLsbD 2,
              hits := 0 } i.isLt } port t (.done []))))
    ∧ (∀ i flags n2 n1 n0 k, s.Asks port t 0x14 [i, flags, n2, n1, n0, k] false → 4 ≤ i.toNat →
      exec (.watchSet port) s = .next (s.replied port t (.refused .range)))
    ∧ (∀ i : Fin 4, s.Asks port t 0x15 [byte i.val] false →
      exec (.watchClear port) s = .next (State.finish (State.answer
        { s.dropRequest port with
          watch := s.watch.set i.val
            { armed := false, id := none, kind := none, oneShot := false, hits := 0 } i.isLt }
        port t (.done []))))
    ∧ (∀ kinds, s.Asks port t 0x16 kinds false → kinds.length ≤ 18 →
      ((∃ k ∈ kinds, k.toNat = 0 ∨ 18 < k.toNat) →
        exec (.noticeMask port) s = .next (s.replied port t (.refused .range)))
      ∧ ((∀ k ∈ kinds, 1 ≤ k.toNat ∧ k.toNat ≤ 18) →
        ∃ (m : Vector Bool 18) (a : Answer), exec (.noticeMask port) s =
            .next (s.repliedAfter port t (fun w => { w with mask := m }) a)
          ∧ a.result = .done
          ∧ ∀ k : Fin 18, m[k] = true ↔ ∃ b ∈ kinds, b.toNat = k.val + 1))
    ∧ (s.Asks port t 0x17 [] false →
      exec (.statusRead port) s = .next (s.repliedAfter port t
        (fun w => { w with latches := Latches.clear, fieldErrors := 0, uplinkErrors := 0 })
        (.done s.statusItems)))

/-- MALFORMED is answered for a code that is no request's and for a TIME.READ with arguments; a field
TIME.READ from a node without the SERVICE role is a stray; a SERVICE node's START and its RUN.CANCEL of
slot 0 are refused PRIVILEGE with a notice.  That the AUTHORITY detail repeats its subject is the model's
choice (log 9), and so is taking an uplink payload without a code as code 00h (log 5). -/
def Obligations.RequestsJudgedBeforeTheirRule : Prop :=
  ∀ (s : State) (port : Port) (t : Taken), s.nextRequest port = some t →
    ((port = .uplink ∨ t.role = some .service) → (t.code = 0 ∨ 23 < t.code.toNat) →
      exec (.malformedRequest port) s = .next (s.replied port t (.refused .malformed)))
    ∧ ((port = .uplink ∨ t.role = some .service) → t.code = 0x01 → t.args ≠ [] →
      exec (.timeRead port) s = .next (s.replied port t (.refused .malformed)))
    ∧ (port = .field → t.role ≠ some .service → t.code = 0x01 →
      exec (.timeRead port) s = .next ((s.dropRequest port).onWorks Works.latchStray).finish)
    ∧ (port = .field → t.role = some .service → t.code = 0x03 → t.args = [] →
      ∀ e st, t.hit = .roster e st →
        exec (.start port) s = .next (s.repliedAfter port t
          (fun w => w.notice .authority (byte e.val) ([byte e.val] ++ beId t.src ++ [0x03]))
          (.refused .privilege)))
    ∧ (port = .field → t.role = some .service → t.code = 0x10 →
      ∀ n1 n0 e st, t.args = [0, n1, n0] → t.hit = .roster e st →
        exec (.runCancel port) s = .next (s.repliedAfter port t
          (fun w => w.notice .authority (byte e.val) ([byte e.val] ++ beId t.src ++ [0x10]))
          (.refused .privilege)))

end
end

