-- ==== Sys2Proof/Laws/State.lean ====
section
/-! SUPPORT. Each field after each named update, true by the definition of the update. -/

namespace Sys2Proof.Machine

set_option Elab.async false

namespace Works

/-! ### modZone -/

@[simp] theorem device_modZone (w : Works) (z : ZoneIx) (f : Zone → Zone) :
    (w.modZone z f).device = w.device := rfl

@[simp] theorem time_modZone (w : Works) (z : ZoneIx) (f : Zone → Zone) :
    (w.modZone z f).time = w.time := rfl

@[simp] theorem tables_modZone (w : Works) (z : ZoneIx) (f : Zone → Zone) :
    (w.modZone z f).tables = w.tables := rfl

@[simp] theorem upQueue_modZone (w : Works) (z : ZoneIx) (f : Zone → Zone) :
    (w.modZone z f).upQueue = w.upQueue := rfl

@[simp] theorem reserved_modZone (w : Works) (z : ZoneIx) (f : Zone → Zone) :
    (w.modZone z f).reserved = w.reserved := rfl

@[simp] theorem mask_modZone (w : Works) (z : ZoneIx) (f : Zone → Zone) :
    (w.modZone z f).mask = w.mask := rfl

@[simp] theorem gapPending_modZone (w : Works) (z : ZoneIx) (f : Zone → Zone) :
    (w.modZone z f).gapPending = w.gapPending := rfl

@[simp] theorem latches_modZone (w : Works) (z : ZoneIx) (f : Zone → Zone) :
    (w.modZone z f).latches = w.latches := rfl

@[simp] theorem fieldErrors_modZone (w : Works) (z : ZoneIx) (f : Zone → Zone) :
    (w.modZone z f).fieldErrors = w.fieldErrors := rfl

@[simp] theorem uplinkErrors_modZone (w : Works) (z : ZoneIx) (f : Zone → Zone) :
    (w.modZone z f).uplinkErrors = w.uplinkErrors := rfl

@[simp] theorem urgent_modZone (w : Works) (z : ZoneIx) (f : Zone → Zone) :
    (w.modZone z f).urgent = w.urgent := rfl

@[simp] theorem command_modZone (w : Works) (z : ZoneIx) (f : Zone → Zone) :
    (w.modZone z f).command = w.command := rfl

@[simp] theorem pass_modZone (w : Works) (z : ZoneIx) (f : Zone → Zone) :
    (w.modZone z f).pass = w.pass := rfl

@[simp] theorem txSeq_modZone (w : Works) (z : ZoneIx) (f : Zone → Zone) :
    (w.modZone z f).txSeq = w.txSeq := rfl

@[simp] theorem roster_modZone (w : Works) (z : ZoneIx) (f : Zone → Zone) :
    (w.modZone z f).roster = w.roster := rfl

@[simp] theorem ctxs_modZone (w : Works) (z : ZoneIx) (f : Zone → Zone) :
    (w.modZone z f).ctxs = w.ctxs := rfl

@[simp] theorem zones_modZone (w : Works) (z : ZoneIx) (f : Zone → Zone) :
    (w.modZone z f).zones = upd w.zones z f := rfl

@[simp] theorem touched_modZone (w : Works) (z : ZoneIx) (f : Zone → Zone) :
    (w.modZone z f).touched = w.touched := rfl

@[simp] theorem runs_modZone (w : Works) (z : ZoneIx) (f : Zone → Zone) :
    (w.modZone z f).runs = w.runs := rfl

@[simp] theorem runNumber_modZone (w : Works) (z : ZoneIx) (f : Zone → Zone) :
    (w.modZone z f).runNumber = w.runNumber := rfl

@[simp] theorem runSerial_modZone (w : Works) (z : ZoneIx) (f : Zone → Zone) :
    (w.modZone z f).runSerial = w.runSerial := rfl

@[simp] theorem offer_modZone (w : Works) (z : ZoneIx) (f : Zone → Zone) :
    (w.modZone z f).offer = w.offer := rfl

@[simp] theorem closes_modZone (w : Works) (z : ZoneIx) (f : Zone → Zone) :
    (w.modZone z f).closes = w.closes := rfl

@[simp] theorem cmdNumber_modZone (w : Works) (z : ZoneIx) (f : Zone → Zone) :
    (w.modZone z f).cmdNumber = w.cmdNumber := rfl

@[simp] theorem line_modZone (w : Works) (z : ZoneIx) (f : Zone → Zone) :
    (w.modZone z f).line = w.line := rfl

@[simp] theorem alert_modZone (w : Works) (z : ZoneIx) (f : Zone → Zone) :
    (w.modZone z f).alert = w.alert := rfl

@[simp] theorem alertTimer_modZone (w : Works) (z : ZoneIx) (f : Zone → Zone) :
    (w.modZone z f).alertTimer = w.alertTimer := rfl

/-! ### modEntry -/

@[simp] theorem device_modEntry (w : Works) (e : EntryIx) (f : Entry → Entry) :
    (w.modEntry e f).device = w.device := rfl

@[simp] theorem time_modEntry (w : Works) (e : EntryIx) (f : Entry → Entry) :
    (w.modEntry e f).time = w.time := rfl

@[simp] theorem tables_modEntry (w : Works) (e : EntryIx) (f : Entry → Entry) :
    (w.modEntry e f).tables = w.tables := rfl

@[simp] theorem upQueue_modEntry (w : Works) (e : EntryIx) (f : Entry → Entry) :
    (w.modEntry e f).upQueue = w.upQueue := rfl

@[simp] theorem reserved_modEntry (w : Works) (e : EntryIx) (f : Entry → Entry) :
    (w.modEntry e f).reserved = w.reserved := rfl

@[simp] theorem mask_modEntry (w : Works) (e : EntryIx) (f : Entry → Entry) :
    (w.modEntry e f).mask = w.mask := rfl

@[simp] theorem gapPending_modEntry (w : Works) (e : EntryIx) (f : Entry → Entry) :
    (w.modEntry e f).gapPending = w.gapPending := rfl

@[simp] theorem latches_modEntry (w : Works) (e : EntryIx) (f : Entry → Entry) :
    (w.modEntry e f).latches = w.latches := rfl

@[simp] theorem fieldErrors_modEntry (w : Works) (e : EntryIx) (f : Entry → Entry) :
    (w.modEntry e f).fieldErrors = w.fieldErrors := rfl

@[simp] theorem uplinkErrors_modEntry (w : Works) (e : EntryIx) (f : Entry → Entry) :
    (w.modEntry e f).uplinkErrors = w.uplinkErrors := rfl

@[simp] theorem urgent_modEntry (w : Works) (e : EntryIx) (f : Entry → Entry) :
    (w.modEntry e f).urgent = w.urgent := rfl

@[simp] theorem command_modEntry (w : Works) (e : EntryIx) (f : Entry → Entry) :
    (w.modEntry e f).command = w.command := rfl

@[simp] theorem pass_modEntry (w : Works) (e : EntryIx) (f : Entry → Entry) :
    (w.modEntry e f).pass = w.pass := rfl

@[simp] theorem txSeq_modEntry (w : Works) (e : EntryIx) (f : Entry → Entry) :
    (w.modEntry e f).txSeq = w.txSeq := rfl

@[simp] theorem roster_modEntry (w : Works) (e : EntryIx) (f : Entry → Entry) :
    (w.modEntry e f).roster = upd w.roster e f := rfl

@[simp] theorem ctxs_modEntry (w : Works) (e : EntryIx) (f : Entry → Entry) :
    (w.modEntry e f).ctxs = w.ctxs := rfl

@[simp] theorem zones_modEntry (w : Works) (e : EntryIx) (f : Entry → Entry) :
    (w.modEntry e f).zones = w.zones := rfl

@[simp] theorem touched_modEntry (w : Works) (e : EntryIx) (f : Entry → Entry) :
    (w.modEntry e f).touched = w.touched := rfl

@[simp] theorem runs_modEntry (w : Works) (e : EntryIx) (f : Entry → Entry) :
    (w.modEntry e f).runs = w.runs := rfl

@[simp] theorem runNumber_modEntry (w : Works) (e : EntryIx) (f : Entry → Entry) :
    (w.modEntry e f).runNumber = w.runNumber := rfl

@[simp] theorem runSerial_modEntry (w : Works) (e : EntryIx) (f : Entry → Entry) :
    (w.modEntry e f).runSerial = w.runSerial := rfl

@[simp] theorem offer_modEntry (w : Works) (e : EntryIx) (f : Entry → Entry) :
    (w.modEntry e f).offer = w.offer := rfl

@[simp] theorem closes_modEntry (w : Works) (e : EntryIx) (f : Entry → Entry) :
    (w.modEntry e f).closes = w.closes := rfl

@[simp] theorem cmdNumber_modEntry (w : Works) (e : EntryIx) (f : Entry → Entry) :
    (w.modEntry e f).cmdNumber = w.cmdNumber := rfl

@[simp] theorem line_modEntry (w : Works) (e : EntryIx) (f : Entry → Entry) :
    (w.modEntry e f).line = w.line := rfl

@[simp] theorem alert_modEntry (w : Works) (e : EntryIx) (f : Entry → Entry) :
    (w.modEntry e f).alert = w.alert := rfl

@[simp] theorem alertTimer_modEntry (w : Works) (e : EntryIx) (f : Entry → Entry) :
    (w.modEntry e f).alertTimer = w.alertTimer := rfl

/-! ### modRun -/

@[simp] theorem device_modRun (w : Works) (i : SlotIx) (f : Run → Run) :
    (w.modRun i f).device = w.device := rfl

@[simp] theorem time_modRun (w : Works) (i : SlotIx) (f : Run → Run) :
    (w.modRun i f).time = w.time := rfl

@[simp] theorem tables_modRun (w : Works) (i : SlotIx) (f : Run → Run) :
    (w.modRun i f).tables = w.tables := rfl

@[simp] theorem upQueue_modRun (w : Works) (i : SlotIx) (f : Run → Run) :
    (w.modRun i f).upQueue = w.upQueue := rfl

@[simp] theorem reserved_modRun (w : Works) (i : SlotIx) (f : Run → Run) :
    (w.modRun i f).reserved = w.reserved := rfl

@[simp] theorem mask_modRun (w : Works) (i : SlotIx) (f : Run → Run) :
    (w.modRun i f).mask = w.mask := rfl

@[simp] theorem gapPending_modRun (w : Works) (i : SlotIx) (f : Run → Run) :
    (w.modRun i f).gapPending = w.gapPending := rfl

@[simp] theorem latches_modRun (w : Works) (i : SlotIx) (f : Run → Run) :
    (w.modRun i f).latches = w.latches := rfl

@[simp] theorem fieldErrors_modRun (w : Works) (i : SlotIx) (f : Run → Run) :
    (w.modRun i f).fieldErrors = w.fieldErrors := rfl

@[simp] theorem uplinkErrors_modRun (w : Works) (i : SlotIx) (f : Run → Run) :
    (w.modRun i f).uplinkErrors = w.uplinkErrors := rfl

@[simp] theorem urgent_modRun (w : Works) (i : SlotIx) (f : Run → Run) :
    (w.modRun i f).urgent = w.urgent := rfl

@[simp] theorem command_modRun (w : Works) (i : SlotIx) (f : Run → Run) :
    (w.modRun i f).command = w.command := rfl

@[simp] theorem pass_modRun (w : Works) (i : SlotIx) (f : Run → Run) :
    (w.modRun i f).pass = w.pass := rfl

@[simp] theorem txSeq_modRun (w : Works) (i : SlotIx) (f : Run → Run) :
    (w.modRun i f).txSeq = w.txSeq := rfl

@[simp] theorem roster_modRun (w : Works) (i : SlotIx) (f : Run → Run) :
    (w.modRun i f).roster = w.roster := rfl

@[simp] theorem ctxs_modRun (w : Works) (i : SlotIx) (f : Run → Run) :
    (w.modRun i f).ctxs = w.ctxs := rfl

@[simp] theorem zones_modRun (w : Works) (i : SlotIx) (f : Run → Run) :
    (w.modRun i f).zones = w.zones := rfl

@[simp] theorem touched_modRun (w : Works) (i : SlotIx) (f : Run → Run) :
    (w.modRun i f).touched = w.touched := rfl

@[simp] theorem runs_modRun (w : Works) (i : SlotIx) (f : Run → Run) :
    (w.modRun i f).runs = upd w.runs i fun r => r.map f := rfl

@[simp] theorem runNumber_modRun (w : Works) (i : SlotIx) (f : Run → Run) :
    (w.modRun i f).runNumber = w.runNumber := rfl

@[simp] theorem runSerial_modRun (w : Works) (i : SlotIx) (f : Run → Run) :
    (w.modRun i f).runSerial = w.runSerial := rfl

@[simp] theorem offer_modRun (w : Works) (i : SlotIx) (f : Run → Run) :
    (w.modRun i f).offer = w.offer := rfl

@[simp] theorem closes_modRun (w : Works) (i : SlotIx) (f : Run → Run) :
    (w.modRun i f).closes = w.closes := rfl

@[simp] theorem cmdNumber_modRun (w : Works) (i : SlotIx) (f : Run → Run) :
    (w.modRun i f).cmdNumber = w.cmdNumber := rfl

@[simp] theorem line_modRun (w : Works) (i : SlotIx) (f : Run → Run) :
    (w.modRun i f).line = w.line := rfl

@[simp] theorem alert_modRun (w : Works) (i : SlotIx) (f : Run → Run) :
    (w.modRun i f).alert = w.alert := rfl

@[simp] theorem alertTimer_modRun (w : Works) (i : SlotIx) (f : Run → Run) :
    (w.modRun i f).alertTimer = w.alertTimer := rfl

/-! ### setRun -/

@[simp] theorem device_setRun (w : Works) (i : SlotIx) (r : Option Run) :
    (w.setRun i r).device = w.device := rfl

@[simp] theorem time_setRun (w : Works) (i : SlotIx) (r : Option Run) :
    (w.setRun i r).time = w.time := rfl

@[simp] theorem tables_setRun (w : Works) (i : SlotIx) (r : Option Run) :
    (w.setRun i r).tables = w.tables := rfl

@[simp] theorem upQueue_setRun (w : Works) (i : SlotIx) (r : Option Run) :
    (w.setRun i r).upQueue = w.upQueue := rfl

@[simp] theorem reserved_setRun (w : Works) (i : SlotIx) (r : Option Run) :
    (w.setRun i r).reserved = w.reserved := rfl

@[simp] theorem mask_setRun (w : Works) (i : SlotIx) (r : Option Run) :
    (w.setRun i r).mask = w.mask := rfl

@[simp] theorem gapPending_setRun (w : Works) (i : SlotIx) (r : Option Run) :
    (w.setRun i r).gapPending = w.gapPending := rfl

@[simp] theorem latches_setRun (w : Works) (i : SlotIx) (r : Option Run) :
    (w.setRun i r).latches = w.latches := rfl

@[simp] theorem fieldErrors_setRun (w : Works) (i : SlotIx) (r : Option Run) :
    (w.setRun i r).fieldErrors = w.fieldErrors := rfl

@[simp] theorem uplinkErrors_setRun (w : Works) (i : SlotIx) (r : Option Run) :
    (w.setRun i r).uplinkErrors = w.uplinkErrors := rfl

@[simp] theorem urgent_setRun (w : Works) (i : SlotIx) (r : Option Run) :
    (w.setRun i r).urgent = w.urgent := rfl

@[simp] theorem command_setRun (w : Works) (i : SlotIx) (r : Option Run) :
    (w.setRun i r).command = w.command := rfl

@[simp] theorem pass_setRun (w : Works) (i : SlotIx) (r : Option Run) :
    (w.setRun i r).pass = w.pass := rfl

@[simp] theorem txSeq_setRun (w : Works) (i : SlotIx) (r : Option Run) :
    (w.setRun i r).txSeq = w.txSeq := rfl

@[simp] theorem roster_setRun (w : Works) (i : SlotIx) (r : Option Run) :
    (w.setRun i r).roster = w.roster := rfl

@[simp] theorem ctxs_setRun (w : Works) (i : SlotIx) (r : Option Run) :
    (w.setRun i r).ctxs = w.ctxs := rfl

@[simp] theorem zones_setRun (w : Works) (i : SlotIx) (r : Option Run) :
    (w.setRun i r).zones = w.zones := rfl

@[simp] theorem touched_setRun (w : Works) (i : SlotIx) (r : Option Run) :
    (w.setRun i r).touched = w.touched := rfl

@[simp] theorem runs_setRun (w : Works) (i : SlotIx) (r : Option Run) :
    (w.setRun i r).runs = upd w.runs i fun _ => r := rfl

@[simp] theorem runNumber_setRun (w : Works) (i : SlotIx) (r : Option Run) :
    (w.setRun i r).runNumber = w.runNumber := rfl

@[simp] theorem runSerial_setRun (w : Works) (i : SlotIx) (r : Option Run) :
    (w.setRun i r).runSerial = w.runSerial := rfl

@[simp] theorem offer_setRun (w : Works) (i : SlotIx) (r : Option Run) :
    (w.setRun i r).offer = w.offer := rfl

@[simp] theorem closes_setRun (w : Works) (i : SlotIx) (r : Option Run) :
    (w.setRun i r).closes = w.closes := rfl

@[simp] theorem cmdNumber_setRun (w : Works) (i : SlotIx) (r : Option Run) :
    (w.setRun i r).cmdNumber = w.cmdNumber := rfl

@[simp] theorem line_setRun (w : Works) (i : SlotIx) (r : Option Run) :
    (w.setRun i r).line = w.line := rfl

@[simp] theorem alert_setRun (w : Works) (i : SlotIx) (r : Option Run) :
    (w.setRun i r).alert = w.alert := rfl

@[simp] theorem alertTimer_setRun (w : Works) (i : SlotIx) (r : Option Run) :
    (w.setRun i r).alertTimer = w.alertTimer := rfl

/-! ### setCtx -/

@[simp] theorem device_setCtx (w : Works) (c : CtxIx) (x : Option Ctx) :
    (w.setCtx c x).device = w.device := rfl

@[simp] theorem time_setCtx (w : Works) (c : CtxIx) (x : Option Ctx) :
    (w.setCtx c x).time = w.time := rfl

@[simp] theorem tables_setCtx (w : Works) (c : CtxIx) (x : Option Ctx) :
    (w.setCtx c x).tables = w.tables := rfl

@[simp] theorem upQueue_setCtx (w : Works) (c : CtxIx) (x : Option Ctx) :
    (w.setCtx c x).upQueue = w.upQueue := rfl

@[simp] theorem reserved_setCtx (w : Works) (c : CtxIx) (x : Option Ctx) :
    (w.setCtx c x).reserved = w.reserved := rfl

@[simp] theorem mask_setCtx (w : Works) (c : CtxIx) (x : Option Ctx) :
    (w.setCtx c x).mask = w.mask := rfl

@[simp] theorem gapPending_setCtx (w : Works) (c : CtxIx) (x : Option Ctx) :
    (w.setCtx c x).gapPending = w.gapPending := rfl

@[simp] theorem latches_setCtx (w : Works) (c : CtxIx) (x : Option Ctx) :
    (w.setCtx c x).latches = w.latches := rfl

@[simp] theorem fieldErrors_setCtx (w : Works) (c : CtxIx) (x : Option Ctx) :
    (w.setCtx c x).fieldErrors = w.fieldErrors := rfl

@[simp] theorem uplinkErrors_setCtx (w : Works) (c : CtxIx) (x : Option Ctx) :
    (w.setCtx c x).uplinkErrors = w.uplinkErrors := rfl

@[simp] theorem urgent_setCtx (w : Works) (c : CtxIx) (x : Option Ctx) :
    (w.setCtx c x).urgent = w.urgent := rfl

@[simp] theorem command_setCtx (w : Works) (c : CtxIx) (x : Option Ctx) :
    (w.setCtx c x).command = w.command := rfl

@[simp] theorem pass_setCtx (w : Works) (c : CtxIx) (x : Option Ctx) :
    (w.setCtx c x).pass = w.pass := rfl

@[simp] theorem txSeq_setCtx (w : Works) (c : CtxIx) (x : Option Ctx) :
    (w.setCtx c x).txSeq = w.txSeq := rfl

@[simp] theorem roster_setCtx (w : Works) (c : CtxIx) (x : Option Ctx) :
    (w.setCtx c x).roster = w.roster := rfl

@[simp] theorem ctxs_setCtx (w : Works) (c : CtxIx) (x : Option Ctx) :
    (w.setCtx c x).ctxs = upd w.ctxs c fun _ => x := rfl

@[simp] theorem zones_setCtx (w : Works) (c : CtxIx) (x : Option Ctx) :
    (w.setCtx c x).zones = w.zones := rfl

@[simp] theorem touched_setCtx (w : Works) (c : CtxIx) (x : Option Ctx) :
    (w.setCtx c x).touched = w.touched := rfl

@[simp] theorem runs_setCtx (w : Works) (c : CtxIx) (x : Option Ctx) :
    (w.setCtx c x).runs = w.runs := rfl

@[simp] theorem runNumber_setCtx (w : Works) (c : CtxIx) (x : Option Ctx) :
    (w.setCtx c x).runNumber = w.runNumber := rfl

@[simp] theorem runSerial_setCtx (w : Works) (c : CtxIx) (x : Option Ctx) :
    (w.setCtx c x).runSerial = w.runSerial := rfl

@[simp] theorem offer_setCtx (w : Works) (c : CtxIx) (x : Option Ctx) :
    (w.setCtx c x).offer = w.offer := rfl

@[simp] theorem closes_setCtx (w : Works) (c : CtxIx) (x : Option Ctx) :
    (w.setCtx c x).closes = w.closes := rfl

@[simp] theorem cmdNumber_setCtx (w : Works) (c : CtxIx) (x : Option Ctx) :
    (w.setCtx c x).cmdNumber = w.cmdNumber := rfl

@[simp] theorem line_setCtx (w : Works) (c : CtxIx) (x : Option Ctx) :
    (w.setCtx c x).line = w.line := rfl

@[simp] theorem alert_setCtx (w : Works) (c : CtxIx) (x : Option Ctx) :
    (w.setCtx c x).alert = w.alert := rfl

@[simp] theorem alertTimer_setCtx (w : Works) (c : CtxIx) (x : Option Ctx) :
    (w.setCtx c x).alertTimer = w.alertTimer := rfl

/-! ### modLine -/

@[simp] theorem device_modLine (w : Works) (f : Line → Line) :
    (w.modLine f).device = w.device := rfl

@[simp] theorem time_modLine (w : Works) (f : Line → Line) :
    (w.modLine f).time = w.time := rfl

@[simp] theorem tables_modLine (w : Works) (f : Line → Line) :
    (w.modLine f).tables = w.tables := rfl

@[simp] theorem upQueue_modLine (w : Works) (f : Line → Line) :
    (w.modLine f).upQueue = w.upQueue := rfl

@[simp] theorem reserved_modLine (w : Works) (f : Line → Line) :
    (w.modLine f).reserved = w.reserved := rfl

@[simp] theorem mask_modLine (w : Works) (f : Line → Line) :
    (w.modLine f).mask = w.mask := rfl

@[simp] theorem gapPending_modLine (w : Works) (f : Line → Line) :
    (w.modLine f).gapPending = w.gapPending := rfl

@[simp] theorem latches_modLine (w : Works) (f : Line → Line) :
    (w.modLine f).latches = w.latches := rfl

@[simp] theorem fieldErrors_modLine (w : Works) (f : Line → Line) :
    (w.modLine f).fieldErrors = w.fieldErrors := rfl

@[simp] theorem uplinkErrors_modLine (w : Works) (f : Line → Line) :
    (w.modLine f).uplinkErrors = w.uplinkErrors := rfl

@[simp] theorem urgent_modLine (w : Works) (f : Line → Line) :
    (w.modLine f).urgent = w.urgent := rfl

@[simp] theorem command_modLine (w : Works) (f : Line → Line) :
    (w.modLine f).command = w.command := rfl

@[simp] theorem pass_modLine (w : Works) (f : Line → Line) :
    (w.modLine f).pass = w.pass := rfl

@[simp] theorem txSeq_modLine (w : Works) (f : Line → Line) :
    (w.modLine f).txSeq = w.txSeq := rfl

@[simp] theorem roster_modLine (w : Works) (f : Line → Line) :
    (w.modLine f).roster = w.roster := rfl

@[simp] theorem ctxs_modLine (w : Works) (f : Line → Line) :
    (w.modLine f).ctxs = w.ctxs := rfl

@[simp] theorem zones_modLine (w : Works) (f : Line → Line) :
    (w.modLine f).zones = w.zones := rfl

@[simp] theorem touched_modLine (w : Works) (f : Line → Line) :
    (w.modLine f).touched = w.touched := rfl

@[simp] theorem runs_modLine (w : Works) (f : Line → Line) :
    (w.modLine f).runs = w.runs := rfl

@[simp] theorem runNumber_modLine (w : Works) (f : Line → Line) :
    (w.modLine f).runNumber = w.runNumber := rfl

@[simp] theorem runSerial_modLine (w : Works) (f : Line → Line) :
    (w.modLine f).runSerial = w.runSerial := rfl

@[simp] theorem offer_modLine (w : Works) (f : Line → Line) :
    (w.modLine f).offer = w.offer := rfl

@[simp] theorem closes_modLine (w : Works) (f : Line → Line) :
    (w.modLine f).closes = w.closes := rfl

@[simp] theorem cmdNumber_modLine (w : Works) (f : Line → Line) :
    (w.modLine f).cmdNumber = w.cmdNumber := rfl

@[simp] theorem line_modLine (w : Works) (f : Line → Line) :
    (w.modLine f).line = f w.line := rfl

@[simp] theorem alert_modLine (w : Works) (f : Line → Line) :
    (w.modLine f).alert = w.alert := rfl

@[simp] theorem alertTimer_modLine (w : Works) (f : Line → Line) :
    (w.modLine f).alertTimer = w.alertTimer := rfl

end Works

namespace State

/-! ### onWorks -/

@[simp] theorem works_onWorks (s : State) (f : Works → Works) : (s.onWorks f).works = f s.works := rfl

@[simp] theorem rxFifo_onWorks (s : State) (f : Works → Works) :
    (s.onWorks f).rxFifo = s.rxFifo := rfl

@[simp] theorem arrivalAnswer_onWorks (s : State) (f : Works → Works) :
    (s.onWorks f).arrivalAnswer = s.arrivalAnswer := rfl

@[simp] theorem held_onWorks (s : State) (f : Works → Works) :
    (s.onWorks f).held = s.held := rfl

@[simp] theorem swuQueue_onWorks (s : State) (f : Works → Works) :
    (s.onWorks f).swuQueue = s.swuQueue := rfl

@[simp] theorem enuQueue_onWorks (s : State) (f : Works → Works) :
    (s.onWorks f).enuQueue = s.enuQueue := rfl

@[simp] theorem vcuQueue_onWorks (s : State) (f : Works → Works) :
    (s.onWorks f).vcuQueue = s.vcuQueue := rfl

@[simp] theorem mguQueue_onWorks (s : State) (f : Works → Works) :
    (s.onWorks f).mguQueue = s.mguQueue := rfl

@[simp] theorem inFlight_onWorks (s : State) (f : Works → Works) :
    (s.onWorks f).inFlight = s.inFlight := rfl

@[simp] theorem requests_onWorks (s : State) (f : Works → Works) :
    (s.onWorks f).requests = s.requests := rfl

@[simp] theorem resetAnswered_onWorks (s : State) (f : Works → Works) :
    (s.onWorks f).resetAnswered = s.resetAnswered := rfl

@[simp] theorem windows_onWorks (s : State) (f : Works → Works) :
    (s.onWorks f).windows = s.windows := rfl

@[simp] theorem folds_onWorks (s : State) (f : Works → Works) :
    (s.onWorks f).folds = s.folds := rfl

@[simp] theorem bank_onWorks (s : State) (f : Works → Works) :
    (s.onWorks f).bank = s.bank := rfl

@[simp] theorem commitPending_onWorks (s : State) (f : Works → Works) :
    (s.onWorks f).commitPending = s.commitPending := rfl

@[simp] theorem watch_onWorks (s : State) (f : Works → Works) :
    (s.onWorks f).watch = s.watch := rfl

@[simp] theorem pins_onWorks (s : State) (f : Works → Works) :
    (s.onWorks f).pins = s.pins := rfl

@[simp] theorem pending_onWorks (s : State) (f : Works → Works) :
    (s.onWorks f).pending = s.pending := rfl

/-! ### finish -/

@[simp] theorem works_finish (s : State) : s.finish.works = { s.works with touched := [] } := rfl

@[simp] theorem rxFifo_finish (s : State) : s.finish.rxFifo = s.rxFifo := rfl

@[simp] theorem arrivalAnswer_finish (s : State) : s.finish.arrivalAnswer = s.arrivalAnswer := rfl

@[simp] theorem held_finish (s : State) : s.finish.held = s.held := rfl

@[simp] theorem swuQueue_finish (s : State) : s.finish.swuQueue = s.swuQueue := rfl

@[simp] theorem enuQueue_finish (s : State) : s.finish.enuQueue = s.enuQueue := rfl

@[simp] theorem vcuQueue_finish (s : State) : s.finish.vcuQueue = s.vcuQueue := rfl

@[simp] theorem mguQueue_finish (s : State) : s.finish.mguQueue = s.mguQueue := rfl

@[simp] theorem inFlight_finish (s : State) : s.finish.inFlight = s.inFlight := rfl

@[simp] theorem requests_finish (s : State) : s.finish.requests = s.requests := rfl

@[simp] theorem resetAnswered_finish (s : State) : s.finish.resetAnswered = s.resetAnswered := rfl

@[simp] theorem windows_finish (s : State) : s.finish.windows = s.windows := rfl

@[simp] theorem folds_finish (s : State) : s.finish.folds = s.folds := rfl

@[simp] theorem bank_finish (s : State) : s.finish.bank = s.bank := rfl

@[simp] theorem commitPending_finish (s : State) : s.finish.commitPending = s.commitPending := rfl

@[simp] theorem watch_finish (s : State) : s.finish.watch = s.watch := rfl

@[simp] theorem pins_finish (s : State) : s.finish.pins = s.drivenPins := rfl

@[simp] theorem pending_finish (s : State) : s.finish.pending = s.pending := rfl

@[simp] theorem drivenPins_finish (s : State) : s.finish.drivenPins = s.drivenPins := rfl

/-! ### dropRequest -/

@[simp] theorem works_dropRequest (s : State) (port : Port) : (s.dropRequest port).works = s.works := by
  cases port <;> rfl

@[simp] theorem requests_dropUplink (s : State) :
    (s.dropRequest .uplink).requests = s.requests.tail := rfl

@[simp] theorem requests_dropField (s : State) : (s.dropRequest .field).requests = s.requests := rfl

@[simp] theorem mguQueue_dropUplink (s : State) : (s.dropRequest .uplink).mguQueue = s.mguQueue := rfl

@[simp] theorem mguQueue_dropField (s : State) :
    (s.dropRequest .field).mguQueue = s.mguQueue.tail := rfl

@[simp] theorem rxFifo_dropRequest (s : State) (port : Port) :
    (s.dropRequest port).rxFifo = s.rxFifo := by
  cases port <;> rfl

@[simp] theorem arrivalAnswer_dropRequest (s : State) (port : Port) :
    (s.dropRequest port).arrivalAnswer = s.arrivalAnswer := by
  cases port <;> rfl

@[simp] theorem held_dropRequest (s : State) (port : Port) :
    (s.dropRequest port).held = s.held := by
  cases port <;> rfl

@[simp] theorem swuQueue_dropRequest (s : State) (port : Port) :
    (s.dropRequest port).swuQueue = s.swuQueue := by
  cases port <;> rfl

@[simp] theorem enuQueue_dropRequest (s : State) (port : Port) :
    (s.dropRequest port).enuQueue = s.enuQueue := by
  cases port <;> rfl

@[simp] theorem vcuQueue_dropRequest (s : State) (port : Port) :
    (s.dropRequest port).vcuQueue = s.vcuQueue := by
  cases port <;> rfl

@[simp] theorem inFlight_dropRequest (s : State) (port : Port) :
    (s.dropRequest port).inFlight = s.inFlight := by
  cases port <;> rfl

@[simp] theorem resetAnswered_dropRequest (s : State) (port : Port) :
    (s.dropRequest port).resetAnswered = s.resetAnswered := by
  cases port <;> rfl

@[simp] theorem windows_dropRequest (s : State) (port : Port) :
    (s.dropRequest port).windows = s.windows := by
  cases port <;> rfl

@[simp] theorem folds_dropRequest (s : State) (port : Port) :
    (s.dropRequest port).folds = s.folds := by
  cases port <;> rfl

@[simp] theorem bank_dropRequest (s : State) (port : Port) :
    (s.dropRequest port).bank = s.bank := by
  cases port <;> rfl

@[simp] theorem commitPending_dropRequest (s : State) (port : Port) :
    (s.dropRequest port).commitPending = s.commitPending := by
  cases port <;> rfl

@[simp] theorem watch_dropRequest (s : State) (port : Port) :
    (s.dropRequest port).watch = s.watch := by
  cases port <;> rfl

@[simp] theorem pins_dropRequest (s : State) (port : Port) :
    (s.dropRequest port).pins = s.pins := by
  cases port <;> rfl

@[simp] theorem pending_dropRequest (s : State) (port : Port) :
    (s.dropRequest port).pending = s.pending := by
  cases port <;> rfl

end State

end Sys2Proof.Machine
end

