-- ==== Sys2Proof/Laws/Tables.lean ====
section
/-! SUPPORT. Reading a table after a row has been changed, and the index lists of the tables. -/

namespace Sys2Proof.Machine

set_option Elab.async false

variable {α β : Type} {n : Nat}

theorem upd_at (v : Vector α n) (i j : Fin n) (f : α → α) :
    (upd v i f)[j] = if j = i then f v[j] else v[j] := by
  by_cases h : j = i
  · subst h
    simp [upd]
  · have : i.val ≠ j.val := fun e => h (Fin.ext e.symm)
    simp [upd, Vector.getElem_set_ne, this, h]

@[simp] theorem upd_at_self (v : Vector α n) (i : Fin n) (f : α → α) :
    (upd v i f)[i.val] = f v[i.val] := by
  simpa using upd_at v i i f

@[simp] theorem mapRows_at (f : α → β) (v : Vector α n) (i : Nat) (h : i < n) :
    (mapRows f v)[i] = f v[i] := by
  simp [mapRows]

theorem set_at_self (v : Vector α n) (i : Fin n) (a : α) : (v.set i.val a i.isLt)[i] = a := by simp

theorem set_at_other (v : Vector α n) (i j : Fin n) (a : α) (h : j ≠ i) :
    (v.set i.val a i.isLt)[j] = v[j] := by
  have : i.val ≠ j.val := fun e => h (Fin.ext e.symm)
  simp [Vector.getElem_set_ne, this]

theorem allZones_nodup : allZones.Nodup := List.nodup_finRange 40

@[simp] theorem mem_allZones (z : ZoneIx) : z ∈ allZones := List.mem_finRange z

@[simp] theorem mem_allSlots (s : SlotIx) : s ∈ allSlots := List.mem_finRange s

@[simp] theorem mem_allEntries (e : EntryIx) : e ∈ allEntries := List.mem_finRange e

/-- A fold of steps that each keep a reflexive and transitive relation keeps it. -/
theorem foldl_keeps {σ : Type} (R : σ → σ → Prop) (hr : ∀ a, R a a)
    (ht : ∀ a b c, R a b → R b c → R a c) (g : σ → α → σ) (hg : ∀ a x, R a (g a x)) (l : List α)
    (a : σ) : R a (l.foldl g a) := by
  induction l generalizing a with
  | nil => exact hr a
  | cons x xs ih => exact ht _ _ _ (hg a x) (ih _)

end Sys2Proof.Machine
end

