-- ==== Sys2Proof/Laws/Records.lean ====
section
/-! SUPPORT. One record after another has been changed, and the sums RDP forms over the valves. -/

namespace Sys2Proof.Machine.Works

set_option Elab.async false

theorem zone_modZone (w : Works) (z x : ZoneIx) (f : Zone → Zone) :
    (w.modZone z f).zone x = if x = z then f (w.zone x) else w.zone x := upd_at _ _ _ _

@[simp] theorem zone_modZone_self (w : Works) (z : ZoneIx) (f : Zone → Zone) :
    (w.modZone z f).zone z = f (w.zone z) := by simp [zone_modZone]

theorem entry_modEntry (w : Works) (e x : EntryIx) (f : Entry → Entry) :
    (w.modEntry e f).entry x = if x = e then f (w.entry x) else w.entry x := upd_at _ _ _ _

@[simp] theorem entry_modEntry_self (w : Works) (e : EntryIx) (f : Entry → Entry) :
    (w.modEntry e f).entry e = f (w.entry e) := by simp [entry_modEntry]

theorem run_modRun (w : Works) (i j : SlotIx) (f : Run → Run) :
    (w.modRun i f).run j = if j = i then (w.run j).map f else w.run j := upd_at _ _ _ _

@[simp] theorem run_modRun_self (w : Works) (i : SlotIx) (f : Run → Run) :
    (w.modRun i f).run i = (w.run i).map f := by simp [run_modRun]

theorem run_setRun (w : Works) (i j : SlotIx) (r : Option Run) :
    (w.setRun i r).run j = if j = i then r else w.run j := upd_at _ _ _ _

@[simp] theorem run_setRun_self (w : Works) (i : SlotIx) (r : Option Run) :
    (w.setRun i r).run i = r := by simp [run_setRun]

theorem ctx_setCtx (w : Works) (c d : CtxIx) (x : Option Ctx) :
    (w.setCtx c x).ctx d = if d = c then x else w.ctx d := upd_at _ _ _ _

@[simp] theorem ctx_setCtx_self (w : Works) (c : CtxIx) (x : Option Ctx) :
    (w.setCtx c x).ctx c = x := by simp [ctx_setCtx]

/-! ### Sums over valves -/

theorem sum_filter_le {α : Type} (l : List α) (d : α → Nat) (p q : α → Bool)
    (h : ∀ x ∈ l, q x = true → p x = true) :
    ((l.filter q).map d).sum ≤ ((l.filter p).map d).sum := by
  induction l with
  | nil => simp
  | cons x xs ih =>
    have ih := ih fun y hy => h y (List.mem_cons_of_mem _ hy)
    have hx := h x (by simp)
    cases hq : q x <;> cases hp : p x <;> simp_all
    omega

/-- Only z may enter the sum: it grows by at most z's share. -/
theorem sum_filter_le_add {α : Type} [DecidableEq α] (l : List α) (hl : l.Nodup) (d : α → Nat)
    (p q : α → Bool) (z : α) (h : ∀ x, x ≠ z → q x = true → p x = true) :
    ((l.filter q).map d).sum ≤ ((l.filter p).map d).sum + d z := by
  induction l with
  | nil => simp
  | cons x xs ih =>
    have hx := List.nodup_cons.mp hl
    by_cases e : x = z
    · subst e
      have := sum_filter_le xs d p q fun y hy => h y fun e => hx.1 (e ▸ hy)
      cases hq : q x <;> cases hp : p x <;> simp_all <;> omega
    · have ih := ih hx.2
      have hx := h x e
      cases hq : q x <;> cases hp : p x <;> simp_all <;> omega

/-- Admitted demand does not grow when no valve comes to draw. -/
theorem admitted_le_of (w v : Works) (ht : v.tables = w.tables)
    (h : ∀ x, (v.zone x).valve.admitted = true → (w.zone x).valve.admitted = true) :
    v.admittedDemand ≤ w.admittedDemand := by
  have hd : v.demandOf = w.demandOf := by
    funext x
    simp [demandOf, cfg, ht]
  unfold admittedDemand demandSum zonesWithValve
  rw [hd]
  exact sum_filter_le _ _ _ _ fun x _ => h x

/-- Admitted demand grows by at most z's demand when only z's valve may come to draw. -/
theorem admitted_le_add (w v : Works) (z : ZoneIx) (ht : v.tables = w.tables)
    (h : ∀ x, x ≠ z → (v.zone x).valve.admitted = true → (w.zone x).valve.admitted = true) :
    v.admittedDemand ≤ w.admittedDemand + w.demandOf z := by
  have hd : v.demandOf = w.demandOf := by
    funext x
    simp [demandOf, cfg, ht]
  unfold admittedDemand demandSum zonesWithValve
  rw [hd]
  exact sum_filter_le_add _ allZones_nodup _ _ _ z fun x hx => h x hx

end Sys2Proof.Machine.Works
end

