-- ==== Sys2Proof/Laws/Keeps.lean ====
section
/-! SUPPORT. What the shared operations keep.  `Keeps q n f w v` says all that an operation that takes
w to v leaves in force: the base records, the queue bounds, the capacity law and the run numbers; with
q set that no work of RDP is left over, with n set the roster and contexts, with f set what FRW holds
of every zone.  Each operation has one lemma here or in the files beside, and proofs cite it. -/

namespace Sys2Proof.Machine

set_option Elab.async false

/-- What FRW and the host hold of a zone: all but valve, command, run slot and generation. -/
def Zone.frostView (x : Zone) : Zone :=
  { x with valve := .closed, cmd := none, runSlot := none, gen := 0 }

namespace Works

structure Bare (q n f : Bool) (w v : Works) : Prop where
  device : v.device = w.device := by exact rfl
  time : v.time = w.time := by exact rfl
  tables : v.tables = w.tables := by exact rfl
  mask : v.mask = w.mask := by exact rfl
  reserved : v.reserved = w.reserved := by exact rfl
  fieldErrors : v.fieldErrors = w.fieldErrors := by exact rfl
  uplinkErrors : v.uplinkErrors = w.uplinkErrors := by exact rfl
  pass : v.pass = w.pass := by exact rfl
  uplink : w.upQueue.length + w.reserved ≤ Config.uplinkCapacity →
    v.upQueue.length + v.reserved ≤ Config.uplinkCapacity := by exact id
  urgent : w.urgent.length ≤ Config.urgentCapacity → v.urgent.length ≤ Config.urgentCapacity := by
    exact id
  command : w.command.length ≤ Config.commandCapacity →
    v.command.length ≤ Config.commandCapacity := by exact id
  commands : (∀ z, (w.zone z).commandFits) → ∀ z, (v.zone z).commandFits := by exact id
  numbers : w.RunsNumbered → v.RunsNumbered := by exact id
  idle : q = true → w.Idle → v.Idle := by exact fun _ => id
  nodes : n = true → v.roster = w.roster ∧ v.ctxs = w.ctxs := by exact fun _ => ⟨rfl, rfl⟩
  figures : f = true → ∀ z, (v.zone z).frostView = (w.zone z).frostView := by exact fun _ _ => rfl

structure Keeps (q n f : Bool) (w v : Works) : Prop extends Bare q n f w v where
  capacity : (∀ z, (w.zone z).commandFits) → w.admittedDemand ≤ w.site.capacity →
    v.admittedDemand ≤ v.site.capacity := by exact fun _ => id

variable {q n f : Bool} {u v w : Works}

theorem Bare.refl (w : Works) : Bare q n f w w := {}

theorem Keeps.refl (w : Works) : Keeps q n f w w := {}

theorem Bare.trans (a : Bare q n f u v) (b : Bare q n f v w) : Bare q n f u w where
  device := b.device.trans a.device
  time := b.time.trans a.time
  tables := b.tables.trans a.tables
  mask := b.mask.trans a.mask
  reserved := b.reserved.trans a.reserved
  fieldErrors := b.fieldErrors.trans a.fieldErrors
  uplinkErrors := b.uplinkErrors.trans a.uplinkErrors
  pass := b.pass.trans a.pass
  uplink h := b.uplink (a.uplink h)
  urgent h := b.urgent (a.urgent h)
  command h := b.command (a.command h)
  commands h := b.commands (a.commands h)
  numbers h := b.numbers (a.numbers h)
  idle hq h := b.idle hq (a.idle hq h)
  nodes hn := ⟨(b.nodes hn).1.trans (a.nodes hn).1, (b.nodes hn).2.trans (a.nodes hn).2⟩
  figures hf z := (b.figures hf z).trans (a.figures hf z)

theorem Keeps.trans (a : Keeps q n f u v) (b : Keeps q n f v w) : Keeps q n f u w :=
  { a.toBare.trans b.toBare with capacity := fun hc h => b.capacity (a.commands hc) (a.capacity hc h) }

/-- A claim about fewer records. -/
theorem Keeps.weaken (a : Keeps true true true u v) : Keeps q n f u v :=
  { a.toBare with
    idle := fun _ => a.idle rfl, nodes := fun _ => a.nodes rfl, figures := fun _ => a.figures rfl,
    capacity := a.capacity }

/-- A claim that says nothing of the nodes. -/
theorem Keeps.dropNodes (a : Keeps q true f u v) : Keeps q n f u v :=
  { a.toBare with nodes := fun _ => a.nodes rfl, capacity := a.capacity }

theorem Keeps.sameBase (a : Keeps q n f u v) : SameBase u v :=
  ⟨a.device, a.time, a.tables, a.mask, a.reserved, a.fieldErrors, a.uplinkErrors, a.pass⟩

theorem Keeps.lawful (a : Keeps q n f u v) (h : u.Lawful) : v.Lawful :=
  ⟨a.commands h.commands, a.capacity h.commands h.capacity⟩

/-- The demands and the site are those of the tables. -/
theorem Bare.cfg (a : Bare q n f u v) (z : ZoneIx) : v.cfg z = u.cfg z := by
  simp [Works.cfg, a.tables]

theorem Bare.site (a : Bare q n f u v) : v.site = u.site := by simp [Works.site, a.tables]

theorem Bare.demandOf (a : Bare q n f u v) (z : ZoneIx) : v.demandOf z = u.demandOf z := by
  simp [Works.demandOf, a.cfg]

theorem Bare.demandSum (a : Bare q n f u v) (zs : List ZoneIx) : v.demandSum zs = u.demandSum zs := by
  unfold Works.demandSum
  congr 1
  exact List.map_congr_left fun z _ => a.demandOf z

/-- A bare change keeps the law when no valve comes to draw. -/
theorem Bare.keeps (a : Bare q n f u v)
    (h : ∀ x, (v.zone x).valve.admitted = true → (u.zone x).valve.admitted = true) :
    Keeps q n f u v := by
  have hle := admitted_le_of u v a.tables h
  exact { a with capacity := fun _ c => a.site ▸ hle.trans c }

/-- A fold of steps that each keep it. -/
theorem Keeps.foldl {α : Type} {g : Works → α → Works} (l : List α) (w : Works)
    (h : ∀ w x, Keeps q n f w (g w x)) : Keeps q n f w (l.foldl g w) :=
  foldl_keeps (Keeps q n f) Keeps.refl (fun _ _ _ => Keeps.trans) g h l w

theorem Keeps.ite {c : Prop} [Decidable c] {x y : Works} (a : Keeps q n f w x) (b : Keeps q n f w y) :
    Keeps q n f w (if c then x else y) := by
  split
  · exact a
  · exact b

/-! ### Single changes -/

/-- A zone changes in neither valve nor command. -/
theorem modZone_keeps (w : Works) (z : ZoneIx) (g : Zone → Zone)
    (hv : (g (w.zone z)).valve = (w.zone z).valve) (hc : (g (w.zone z)).cmd = (w.zone z).cmd)
    (hg : f = true → (g (w.zone z)).frostView = (w.zone z).frostView) :
    Keeps q n f w (w.modZone z g) := by
  refine Bare.keeps { commands := ?_, figures := ?_ } ?_
  · intro h x
    rw [zone_modZone]
    split
    · rename_i e
      subst e
      simpa [Zone.commandFits, hv, hc] using h x
    · exact h x
  · intro hf x
    rw [zone_modZone]
    split
    · rename_i e
      subst e
      exact hg hf
    · rfl
  · intro x
    rw [zone_modZone]
    split
    · rename_i e
      subst e
      rw [hv]
      exact id
    · exact id

/-- What FRW holds of a zone changes. -/
theorem modFrost_keeps (w : Works) (z : ZoneIx) (g : Zone → Zone)
    (hv : (g (w.zone z)).valve = (w.zone z).valve) (hc : (g (w.zone z)).cmd = (w.zone z).cmd) :
    Keeps q n false w (w.modZone z g) := modZone_keeps w z g hv hc fun h => nomatch h

theorem modLine_keeps (w : Works) (g : Line → Line) : Keeps q n f w (w.modLine g) := {}

theorem modEntry_keeps (w : Works) (e : EntryIx) (g : Entry → Entry) :
    Keeps q false f w (w.modEntry e g) := { nodes := fun h => nomatch h }

theorem setCtx_keeps (w : Works) (c : CtxIx) (x : Option Ctx) : Keeps q false f w (w.setCtx c x) :=
  { nodes := fun h => nomatch h }

/-- A run changes but for its number. -/
theorem modRun_keeps (w : Works) (i : SlotIx) (g : Run → Run) (hg : ∀ r, (g r).number = r.number) :
    Keeps q n f w (w.modRun i g) := by
  refine { numbers := fun h => ⟨h.1, fun j r hr => ?_⟩ }
  rw [run_modRun] at hr
  split at hr
  · cases hw : w.run j with
    | none => simp [hw] at hr
    | some x =>
      simp only [hw, Option.map_some, Option.some.injEq] at hr
      rw [← hr, hg]
      exact h.2 j x hw
  · exact h.2 j r hr

theorem touch_keeps (w : Works) (z : ZoneIx) : Keeps q n f w (w.touch z) := by
  unfold touch
  split
  · exact Keeps.refl w
  · exact (modZone_keeps w z (fun x => { x with gen := x.gen + 1 }) rfl rfl fun _ => rfl).trans {}

/-! ### Latches and the ways out -/

theorem latchStray_keeps (w : Works) : Keeps q n f w w.latchStray := {}

theorem latchBounds_keeps (w : Works) : Keeps q n f w w.latchBounds := {}

theorem latchFieldOverrun_keeps (w : Works) : Keeps q n f w w.latchFieldOverrun := {}

theorem latchUplinkShed_keeps (w : Works) : Keeps q n f w w.latchUplinkShed := {}

theorem latchReportShed_keeps (w : Works) : Keeps q n f w w.latchReportShed := {}

theorem latchFlowFault_keeps (w : Works) : Keeps q n f w w.latchFlowFault := {}

theorem latchLeak_keeps (w : Works) : Keeps q n f w w.latchLeak := {}

theorem latchRunFull_keeps (w : Works) : Keeps q n f w w.latchRunFull := {}

theorem latchNoticeGap_keeps (w : Works) : Keeps q n f w w.latchNoticeGap := {}

/-- A frame taken while a slot is free (R22, R23). -/
theorem queueUp_keeps (w : Works) (frame : Bytes) (h : 1 ≤ w.freeSlots) :
    Keeps q n f w (w.queueUp frame) := by
  refine { uplink := fun _ => ?_ }
  unfold freeSlots at h
  simp only [queueUp, List.length_append, List.length_cons, List.length_nil]
  omega

theorem notice_keeps (w : Works) (k : NoticeKind) (subject : Byte) (detail : Bytes) :
    Keeps q n f w (w.notice k subject detail) := by
  unfold notice
  split
  · split
    · rename_i h
      exact (queueUp_keeps w _ h).trans {}
    · exact latchNoticeGap_keeps w
  · exact Keeps.refl w

theorem passUp_keeps (w : Works) (c : PassCause) (h : Hit) (frame : Bytes) :
    Keeps q n f w (w.passUp c h frame) := by
  unfold passUp
  split
  · rename_i h
    exact queueUp_keeps w _ (le_trans (by decide) h)
  · exact latchUplinkShed_keeps w

theorem report_keeps (w : Works) (payload : Bytes) : Keeps q n f w (w.report payload) := by
  unfold report
  split
  · rename_i h
    exact queueUp_keeps w _ (le_trans (by decide) h)
  · exact latchReportShed_keeps w

theorem submitUrgent_keeps (w : Works) (k : Byte) (dst : NodeId) (p : Bytes) :
    Keeps q n f w (w.submitUrgent k dst p) := by
  unfold submitUrgent
  split
  · rename_i h
    exact { urgent := fun _ => by simpa using h }
  · exact Keeps.refl w

theorem submitCommand_keeps (w : Works) (k : Byte) (dst : NodeId) (p : Bytes) :
    Keeps q n f w (w.submitCommand k dst p) := by
  unfold submitCommand
  split
  · rename_i h
    refine { command := fun _ => ?_ }
    simp only [List.length_append, List.length_cons, List.length_nil]
    omega
  · exact Keeps.refl w

theorem submitReply_keeps (w : Works) (dst : NodeId) (p : Bytes) :
    Keeps q n f w (w.submitReply dst p) := by
  unfold submitReply
  split
  · rename_i h
    exact { command := fun _ => by simpa using h }
  · exact Keeps.refl w

end Works

end Sys2Proof.Machine
end

