-- ==== Sys2Proof/Laws/KeepsValves.lean ====
section
/-! SUPPORT. What the operations of VCU, MLD and FRW's state changes keep. -/

namespace Sys2Proof.Machine.Works

set_option Elab.async false

variable {q n f : Bool}

/-! ### Zones, entries, commands -/

theorem setCmd_bare (w : Works) (z : ZoneIx) (c : Option Cmd)
    (h : ∀ k, c = some k → k.kind = .openValve → k.renewal = false → (w.zone z).valve = .opening) :
    Keeps q n f w (w.setCmd z c) := by
  refine Bare.keeps { commands := ?_, figures := ?_ } ?_
  · intro hw x
    unfold setCmd
    rw [zone_modZone]
    split
    · rename_i e
      subst e
      unfold Zone.commandFits
      cases c with
      | none => trivial
      | some k => exact fun hk hr => h k rfl hk hr
    · exact hw x
  · intro _ x
    unfold setCmd
    rw [zone_modZone]
    split <;> rfl
  · intro x
    unfold setCmd
    rw [zone_modZone]
    split <;> exact id

/-- The command ends. -/
theorem dropCmd_keeps (w : Works) (z : ZoneIx) : Keeps q n f w (w.setCmd z none) :=
  setCmd_bare w z none fun _ h => nomatch h

/-- The outstanding command changes in neither kind nor renewal. -/
theorem sameCmd_keeps (w : Works) (z : ZoneIx) (c d : Cmd) (hc : (w.zone z).cmd = some c)
    (hk : d.kind = c.kind) (hr : d.renewal = c.renewal) : Keeps q n f w (w.setCmd z (some d)) := by
  refine Bare.keeps { commands := ?_, figures := ?_ } ?_
  · intro hw x
    unfold setCmd
    rw [zone_modZone]
    split
    · rename_i e
      subst e
      have := hw x
      simpa [Zone.commandFits, hc, hk, hr] using this
    · exact hw x
  · intro _ x
    unfold setCmd
    rw [zone_modZone]
    split <;> rfl
  · intro x
    unfold setCmd
    rw [zone_modZone]
    split <;> exact id

theorem zone_touch_valve (w : Works) (z x : ZoneIx) :
    ((w.touch z).zone x).valve = (w.zone x).valve := by
  unfold touch
  split
  · rfl
  · show ((w.modZone z fun y => { y with gen := y.gen + 1 }).zone x).valve = _
    rw [zone_modZone]
    split <;> rfl

theorem zone_touch_cmd (w : Works) (z x : ZoneIx) : ((w.touch z).zone x).cmd = (w.zone x).cmd := by
  unfold touch
  split
  · rfl
  · show ((w.modZone z fun y => { y with gen := y.gen + 1 }).zone x).cmd = _
    rw [zone_modZone]
    split <;> rfl

theorem zone_setValve_valve (w : Works) (z x : ZoneIx) (v : ValveState) :
    ((w.setValve z v).zone x).valve = if x = z then v else (w.zone x).valve := by
  unfold setValve
  split
  · rename_i h
    split
    · rename_i e
      rw [e, h]
    · rfl
  · rw [zone_touch_valve, zone_modZone]
    split <;> rfl

theorem zone_setValve_cmd (w : Works) (z x : ZoneIx) (v : ValveState) :
    ((w.setValve z v).zone x).cmd = (w.zone x).cmd := by
  unfold setValve
  split
  · rfl
  · rw [zone_touch_cmd, zone_modZone]
    split <;> rfl

/-- A valve changes state to OPENING, from another state, or while no OPEN is outstanding on it. -/
theorem setValve_bare (w : Works) (z : ZoneIx) (v : ValveState)
    (h : v = .opening ∨ (w.zone z).valve ≠ .opening ∨ ∀ k, (w.zone z).cmd = some k → k.kind = .openValve → k.renewal = true) :
    Bare q n f w (w.setValve z v) := by
  have base : Bare q n f w (w.modZone z fun x => { x with valve := v }) := by
    refine { commands := ?_, figures := ?_ }
    · intro hw x
      rw [zone_modZone]
      split
      · rename_i e
        subst e
        unfold Zone.commandFits
        rcases h with h | h | h
        · subst h
          dsimp only
          split <;> simp
        · have := hw x
          unfold Zone.commandFits at this
          dsimp only
          split
          · rename_i c hc
            rw [hc] at this
            exact fun hk hr => absurd (this hk hr) h
          · trivial
        · dsimp only
          split
          · rename_i c hc
            intro hk hr
            simp [h c hc hk] at hr
          · trivial
      · exact hw x
    · intro _ x
      rw [zone_modZone]
      split <;> rfl
  unfold setValve
  split
  · exact Bare.refl w
  · exact base.trans (touch_keeps _ z).toBare

/-- The valve comes to draw nothing, or drew already. -/
theorem setValve_keeps (w : Works) (z : ZoneIx) (v : ValveState)
    (h : v = .opening ∨ (w.zone z).valve ≠ .opening ∨ ∀ k, (w.zone z).cmd = some k → k.kind = .openValve → k.renewal = true)
    (hd : v.admitted = true → (w.zone z).valve.admitted = true) :
    Keeps q n f w (w.setValve z v) := by
  refine (setValve_bare w z v h).keeps fun x => ?_
  rw [zone_setValve_valve]
  split
  · rename_i e
    exact e ▸ hd
  · exact id

/-- A valve without a command stops drawing. -/
theorem endValve_keeps (w : Works) (z : ZoneIx) (v : ValveState) (hv : v.admitted = false) :
    Keeps q n f w ((w.setCmd z none).setValve z v) := by
  refine (dropCmd_keeps w z).trans (setValve_keeps _ z v (Or.inr (Or.inr fun k hk => ?_)) ?_)
  · simp [setCmd] at hk
  · simp [hv]

theorem syncRunSlot_keeps (w : Works) (z : ZoneIx) : Keeps q n f w (w.syncRunSlot z) := by
  unfold syncRunSlot
  dsimp only
  split
  · exact Keeps.refl w
  · exact (modZone_keeps w z _ rfl rfl fun _ => rfl).trans (touch_keeps _ z)

theorem putEntry_keeps (w : Works) (s : SlotIx) (z : ZoneIx) (g : RunEntry → RunEntry) :
    Keeps q n f w (w.putEntry s z g) :=
  (modRun_keeps w s (fun r => r.modEntry z g) fun _ => rfl).trans (syncRunSlot_keeps _ z)

theorem attempt_keeps (w : Works) (z : ZoneIx) : Keeps q n f w (w.attempt z) := by
  unfold attempt
  split
  · exact Keeps.refl w
  · rename_i c hc
    have h : ∀ limit : Nat, Keeps q n f w (w.setCmd z (some
        { c with attempts := c.attempts + 1, deadline := some (after w.time w.site.ackWait),
                 limited := c.limited || decide (0 < limit) })) := fun _ =>
      sameCmd_keeps w z c _ hc rfl rfl
    dsimp only
    split
    · exact (h _).trans (submitCommand_keeps _ _ _ _)
    · exact (h _).trans (submitUrgent_keeps _ _ _ _)
    · exact h _

theorem createCmd_keeps (w : Works) (z : ZoneIx) (k : CmdKind) (r : Bool)
    (h : k = .openValve → r = false → (w.zone z).valve = .opening) :
    Keeps q n f w (w.createCmd z k r) := by
  have key : ∀ (c : Cmd) (m : Byte), c.kind = k → c.renewal = r →
      Keeps q n f w { w.setCmd z (some c) with cmdNumber := m } := by
    intro c m hk hr
    refine (setCmd_bare w z (some c) ?_).trans {}
    intro d hd
    cases hd
    rw [hk, hr]
    exact h
  unfold createCmd
  dsimp only
  split
  · exact (key _ _ rfl rfl).trans (attempt_keeps _ z)
  · exact key _ _ rfl rfl

/-- Admission: what it keeps, and by how much admitted demand may grow (R123). -/
theorem openRequest_bare (w : Works) (z : ZoneIx) : Bare q n f w (w.openRequest z) :=
  (setValve_bare w z .opening (Or.inl rfl)).trans
    (createCmd_keeps _ z .openValve false fun _ _ => by simp [zone_setValve_valve]).toBare

theorem zone_setCmd_valve (w : Works) (z x : ZoneIx) (c : Option Cmd) :
    ((w.setCmd z c).zone x).valve = (w.zone x).valve := by
  unfold setCmd
  rw [zone_modZone]
  split <;> rfl

theorem zone_setCmd_cmd (w : Works) (z x : ZoneIx) (c : Option Cmd) :
    ((w.setCmd z c).zone x).cmd = if x = z then c else (w.zone x).cmd := by
  unfold setCmd
  rw [zone_modZone]
  split <;> rfl

theorem zones_submitCommand (w : Works) (k : Byte) (dst : NodeId) (p : Bytes) :
    (w.submitCommand k dst p).zones = w.zones := by
  unfold submitCommand
  split <;> rfl

theorem zones_submitUrgent (w : Works) (k : Byte) (dst : NodeId) (p : Bytes) :
    (w.submitUrgent k dst p).zones = w.zones := by
  unfold submitUrgent
  split <;> rfl

theorem zone_submitCommand (w : Works) (k : Byte) (dst : NodeId) (p : Bytes) (x : ZoneIx) :
    (w.submitCommand k dst p).zone x = w.zone x := by
  simp only [zone, zones_submitCommand]

theorem zone_submitUrgent (w : Works) (k : Byte) (dst : NodeId) (p : Bytes) (x : ZoneIx) :
    (w.submitUrgent k dst p).zone x = w.zone x := by
  simp only [zone, zones_submitUrgent]

theorem zone_attempt_valve (w : Works) (z x : ZoneIx) :
    ((w.attempt z).zone x).valve = (w.zone x).valve := by
  unfold attempt
  split
  · rfl
  · dsimp only
    split
    · rw [zone_submitCommand, zone_setCmd_valve]
    · rw [zone_submitUrgent, zone_setCmd_valve]
    · rw [zone_setCmd_valve]

theorem zone_createCmd_valve (w : Works) (z x : ZoneIx) (k : CmdKind) (r : Bool) :
    ((w.createCmd z k r).zone x).valve = (w.zone x).valve := by
  unfold createCmd
  dsimp only
  split
  · rw [zone_attempt_valve]
    exact zone_setCmd_valve w z x _
  · exact zone_setCmd_valve w z x _

theorem openRequest_admitted (w : Works) (z : ZoneIx) :
    (w.openRequest z).admittedDemand ≤ w.admittedDemand + w.demandOf z := by
  refine admitted_le_add w _ z (openRequest_bare (q := true) (n := true) (f := true) w z).tables ?_
  intro x hx
  unfold openRequest
  rw [zone_createCmd_valve, zone_setValve_valve, if_neg hx]
  exact id

/-- A CLOSE replaces the command of a valve that draws. -/
theorem closeNow_keeps (w : Works) (z : ZoneIx) (h : (w.zone z).valve.admitted = true) :
    Keeps q n f w (w.closeNow z) := by
  refine ((dropCmd_keeps w z).trans (setValve_keeps _ z .closing (Or.inr (Or.inr fun k hk => ?_)) ?_)).trans
    (createCmd_keeps _ z .closeValve false fun h => nomatch h)
  · simp [zone_setCmd_cmd] at hk
  · intro _
    rwa [zone_setCmd_valve]

/-- A close request; a dropped OPEN leaves a close to be taken (R156). -/
theorem closeRequest_keeps (w : Works) (z : ZoneIx) : Keeps false n f w (w.closeRequest z) := by
  unfold closeRequest
  split
  · exact closeNow_keeps w z (by simp [*, ValveState.admitted])
  · split
    · exact (endValve_keeps w z .closed rfl).trans { idle := fun h => nomatch h }
    · exact closeNow_keeps w z (by simp [*, ValveState.admitted])
  · exact closeNow_keeps w z (by simp [*, ValveState.admitted])
  · rename_i c _ hc
    exact sameCmd_keeps w z c _ hc rfl rfl
  all_goals exact Keeps.refl w

theorem setFollowOn_keeps (w : Works) (z : ZoneIx) : Keeps q n f w (w.setFollowOn z) := by
  unfold setFollowOn
  split
  · rename_i c hc
    exact sameCmd_keeps w z c _ hc rfl rfl
  · exact Keeps.refl w

theorem renew_keeps (w : Works) (z : ZoneIx) : Keeps q n f w (w.renew z) :=
  createCmd_keeps w z .openValve true fun _ h => nomatch h

theorem sendHeld_keeps (w : Works) : Keeps q n f w w.sendHeld := by
  refine Keeps.foldl _ _ fun w z => ?_
  split
  · split
    · exact attempt_keeps w z
    · exact Keeps.refl w
  · exact Keeps.refl w

theorem startFlowDeadline_keeps (w : Works) (s : SlotIx) : Keeps q n f w (w.startFlowDeadline s) := by
  unfold startFlowDeadline
  split
  · exact modRun_keeps w s _ fun _ => rfl
  · exact Keeps.refl w

theorem pumpStarted_keeps (w : Works) : Keeps q n f w w.pumpStarted := by
  refine Keeps.foldl _ _ fun w s => ?_
  split
  · split
    · exact startFlowDeadline_keeps w s
    · exact Keeps.refl w
  · exact Keeps.refl w

/-! ### MLD -/

theorem beginPulse_keeps (w : Works) : Keeps q n f w w.beginPulse := by
  unfold beginPulse
  split
  · exact modLine_keeps w _
  · exact Keeps.refl w

theorem requestPulse_keeps (w : Works) (o : Output) (on : Bool) :
    Keeps q n f w (w.requestPulse o on) :=
  (modLine_keeps w _).trans (beginPulse_keeps _)

theorem setLine_keeps (w : Works) (s : LineState) : Keeps q n f w (w.setLine s) := modLine_keeps w _

theorem enterPriming_keeps (w : Works) : Keeps q n f w w.enterPriming :=
  (setLine_keeps w _).trans (requestPulse_keeps _ _ _)

theorem enterStopping_keeps (w : Works) : Keeps q n f w w.enterStopping :=
  ((setLine_keeps w _).trans (requestPulse_keeps _ _ _)).trans (requestPulse_keeps _ _ _)

theorem enterDraining_keeps (w : Works) : Keeps q n f w w.enterDraining :=
  ((setLine_keeps w _).trans (requestPulse_keeps _ _ _)).trans (modLine_keeps _ _)

theorem endDrain_keeps (w : Works) : Keeps q n f w w.endDrain :=
  (modLine_keeps w _).trans (requestPulse_keeps _ _ _)

theorem demandRise_keeps (w : Works) : Keeps q n f w w.demandRise := by
  unfold demandRise
  dsimp only
  split
  · exact (modLine_keeps w _).trans (enterPriming_keeps _)
  · exact (modLine_keeps w _).trans (endDrain_keeps _)
  · exact modLine_keeps w _

theorem demandFall_keeps (w : Works) : Keeps q n f w w.demandFall := by
  unfold demandFall
  dsimp only
  split
  · split
    · exact modLine_keeps w _
    · exact (modLine_keeps w _).trans (enterStopping_keeps _)
  · exact (modLine_keeps w _).trans (enterStopping_keeps _)
  · exact modLine_keeps w _

theorem tellLine_keeps (w : Works) : Keeps q n f w w.tellLine := by
  unfold tellLine
  split
  · split
    · exact Keeps.refl w
    · exact demandRise_keeps w
  · split
    · exact demandFall_keeps w
    · exact Keeps.refl w

theorem frostFlows_keeps (w : Works) : Keeps q n f w w.frostFlows := modLine_keeps w _

theorem openReported_keeps (w : Works) : Keeps q n f w w.openReported := by
  unfold openReported
  split
  · exact Keeps.refl w
  · split
    · exact (modLine_keeps w _).trans (requestPulse_keeps _ _ _)
    · exact Keeps.refl w

theorem stopIfIdle_keeps (w : Works) : Keeps q n f w w.stopIfIdle := by
  unfold stopIfIdle
  split
  · exact Keeps.refl w
  · exact enterStopping_keeps w

theorem stopComplete_keeps (w : Works) : Keeps q n f w w.stopComplete := by
  unfold stopComplete
  split
  · exact enterPriming_keeps w
  · split
    · exact enterDraining_keeps w
    · exact (setLine_keeps w _).trans (modLine_keeps _ _)

theorem drainComplete_keeps (w : Works) : Keeps q n f w w.drainComplete := by
  unfold drainComplete
  dsimp only
  split
  · exact (modLine_keeps w _).trans (enterPriming_keeps _)
  · exact (modLine_keeps w _).trans (setLine_keeps _ _)

theorem lineAfterPulse_keeps (w : Works) (o : Output) (on : Bool) :
    Keeps q n f w (w.lineAfterPulse o on) := by
  unfold lineAfterPulse
  split
  · exact ((setLine_keeps w _).trans (sendHeld_keeps _)).trans (stopIfIdle_keeps _)
  · exact ((modLine_keeps w _).trans (pumpStarted_keeps _)).trans (stopIfIdle_keeps _)
  · exact stopComplete_keeps w
  · exact drainComplete_keeps w
  · exact Keeps.refl w

theorem believe_keeps (w : Works) (o : Output) (on : Bool) : Keeps q n f w (w.believe o on) :=
  modLine_keeps w _

theorem setPhase_keeps (w : Works) (p : Pulse) (ph : Phase) : Keeps q n f w (w.setPhase p ph) :=
  modLine_keeps w _

/-! ### FRW's state changes -/

theorem sendAlert_keeps (w : Works) : Keeps q n f w w.sendAlert :=
  (submitUrgent_keeps w _ _ _).trans {}

theorem driveAlert_keeps (w : Works) : Keeps q n f w w.driveAlert := by
  unfold driveAlert
  split
  · split
    · exact Keeps.refl w
    · exact Keeps.trans (v := { w with alert := true }) {} (sendAlert_keeps _)
  · exact {}

theorem setFrost_keeps (w : Works) (z : ZoneIx) (s : FrostState) (t : Option Nat) (c : FrostCause) :
    Keeps q n false w (w.setFrost z s t c) := by
  unfold setFrost
  split
  · exact Keeps.refl w
  · exact (((modFrost_keeps w z (fun x => { x with frost := s, confirm := 0, thaw := t }) rfl
      rfl).trans (touch_keeps _ z)).trans
      (driveAlert_keeps _)).trans (notice_keeps _ _ _ _)

theorem settleZone_keeps (w : Works) (z : ZoneIx) (c : FrostCause) :
    Keeps q n false w (w.settleZone z c) := setFrost_keeps w z _ _ c

theorem entryOpen_keeps (w : Works) (z : ZoneIx) : Keeps q n false w (w.entryOpen z) := by
  unfold entryOpen
  split
  · exact setFrost_keeps w z _ _ _
  · exact Keeps.refl w

theorem entryBack_keeps (w : Works) (z : ZoneIx) : Keeps q n false w (w.entryBack z) := by
  unfold entryBack
  split <;> first | exact setFrost_keeps w z _ _ _ | exact Keeps.refl w

theorem entryFaulted_keeps (w : Works) (z : ZoneIx) : Keeps q n false w (w.entryFaulted z) := by
  unfold entryFaulted
  split <;> first | exact setFrost_keeps w z _ _ _ | exact Keeps.refl w

end Sys2Proof.Machine.Works
end

