-- ==== Sys2Proof/Laws/KeepsRuns.lean ====
section
/-! SUPPORT. What RDP's operations keep, and that an event leaves no work in hand. -/

namespace Sys2Proof.Machine.Works

set_option Elab.async false

variable {q n f : Bool}

/-! ### Runs -/

theorem runNotice_keeps (w : Works) (s : SlotIx) (o : Option RunState) :
    Keeps q n f w (w.runNotice s o) := by
  unfold runNotice
  split
  · exact notice_keeps w _ _ _
  · exact Keeps.refl w

theorem nowFlowing_keeps (w : Works) (s : SlotIx) : Keeps q n f w (w.nowFlowing s) := by
  have h : Keeps q n f w (if s = 0 then w.frostFlows else w) :=
    Keeps.ite (frostFlows_keeps w) (Keeps.refl w)
  exact Keeps.ite (h.trans (startFlowDeadline_keeps _ s)) h

theorem setRunState_keeps (w : Works) (s : SlotIx) (new : RunState) (c : Option RunCause) :
    Keeps q n f w (w.setRunState s new c) := by
  unfold setRunState
  split
  · exact Keeps.refl w
  · refine Keeps.ite (Keeps.refl w) ?_
    have h : ∀ g : Run → Run, (∀ r, (g r).number = r.number) → ∀ o,
        Keeps q n f w ((w.modRun s g).runNotice s o) := fun g hg o =>
      (modRun_keeps w s g hg).trans (runNotice_keeps _ s o)
    exact Keeps.ite ((h _ (by intro _; rfl) _).trans (nowFlowing_keeps _ s)) (h _ (by intro _; rfl) _)

theorem nextNumber_ne_zero (x : Word16) (_ : x ≠ 0) : (if x = 0xFFFF#16 then 1 else x + 1) ≠ 0 := by
  split
  · decide
  · bv_omega

theorem createRun_keeps (w : Works) (s : SlotIx) (k : RunKind) (o : Origin) (st : RunState)
    (g : Option Nat) (es : List RunEntry) : Keeps q n f w (w.createRun s k o st g es) := by
  unfold createRun
  dsimp only
  have h1 : ∀ r : Run, r.number = w.runNumber → ∀ m,
      Keeps q n f w { w.setRun s (some r) with
        runNumber := if w.runNumber = 0xFFFF#16 then 1 else w.runNumber + 1, runSerial := m } := by
    intro r hr m
    refine { numbers := fun h => ⟨nextNumber_ne_zero _ h.1, fun j x hx => ?_⟩ }
    have hx : (w.setRun s (some r)).run j = some x := hx
    rw [run_setRun] at hx
    split at hx
    · cases hx
      rw [hr]
      exact h.1
    · exact h.2 j x hx
  have h2 := fun r hr m => (h1 r hr m).trans
    ((Keeps.foldl (es.map RunEntry.zone) _ syncRunSlot_keeps).trans (runNotice_keeps _ s none))
  split
  · exact (h2 _ rfl _).trans (nowFlowing_keeps _ s)
  · exact h2 _ rfl _

theorem offerAdmission_keeps (w : Works) : Keeps false n f w w.offerAdmission :=
  { idle := fun h => nomatch h }

theorem judgeIrrigation_keeps (w : Works) (s : SlotIx) : Keeps false n f w (w.judgeIrrigation s) := by
  unfold judgeIrrigation
  split
  · exact Keeps.refl w
  · split
    · exact Keeps.refl w
    all_goals repeat' split
    all_goals first
      | exact Keeps.refl w
      | exact setRunState_keeps w s _ _
      | exact (setRunState_keeps w s _ _).trans (offerAdmission_keeps _)

theorem judgeFrost_keeps (w : Works) : Keeps q n f w w.judgeFrost := by
  unfold judgeFrost
  split
  · exact Keeps.refl w
  · exact setRunState_keeps w 0 _ _

theorem judgeRun_keeps (w : Works) (s : SlotIx) : Keeps false n f w (w.judgeRun s) := by
  unfold judgeRun
  split
  · exact judgeFrost_keeps w
  · exact judgeIrrigation_keeps w s

theorem sendClosing_keeps (w : Works) (s : SlotIx) (c : EntryCause) (z : ZoneIx) :
    Keeps false n f w (w.sendClosing s c z) :=
  (putEntry_keeps w s z _).trans (closeRequest_keeps _ z)

/-! ### Admission -/

theorem admitEntry_bare (w : Works) (s : SlotIx) (z : ZoneIx) : Bare q n f w (w.admitEntry s z) :=
  (putEntry_keeps w s z _).toBare.trans (openRequest_bare _ z)

theorem zones_modRun_zone (w : Works) (s : SlotIx) (g : Run → Run) (x : ZoneIx) :
    (w.modRun s g).zone x = w.zone x := rfl

theorem zone_syncRunSlot_valve (w : Works) (z x : ZoneIx) :
    ((w.syncRunSlot z).zone x).valve = (w.zone x).valve := by
  unfold syncRunSlot
  dsimp only
  split
  · rfl
  · rw [zone_touch_valve, zone_modZone]
    split <;> rfl

theorem zone_putEntry_valve (w : Works) (s : SlotIx) (z x : ZoneIx) (g : RunEntry → RunEntry) :
    ((w.putEntry s z g).zone x).valve = (w.zone x).valve := by
  unfold putEntry
  rw [zone_syncRunSlot_valve]
  rfl

theorem admitEntry_admitted (w : Works) (s : SlotIx) (z : ZoneIx) :
    (w.admitEntry s z).admittedDemand ≤ w.admittedDemand + w.demandOf z := by
  have b : Keeps true true true w (w.putEntry s z fun e => e.become .opening) := putEntry_keeps w s z _
  have h1 := openRequest_admitted (w.putEntry s z fun e => e.become .opening) z
  have h2 := admitted_le_of w (w.putEntry s z fun e => e.become .opening) b.tables
    fun x => by rw [zone_putEntry_valve]; exact id
  rw [b.demandOf] at h1
  exact h1.trans (by omega)

/-- An admission that free capacity covers keeps the law. -/
theorem admitEntry_keeps (w : Works) (s : SlotIx) (z : ZoneIx) (h : w.fits z = true) :
    Keeps q n f w (w.admitEntry s z) := by
  have b : Bare q n f w (w.admitEntry s z) := admitEntry_bare w s z
  have ha := admitEntry_admitted w s z
  refine { b with capacity := fun _ hc => ?_ }
  rw [b.site]
  have hf : w.demandOf z ≤ w.site.capacity - w.admittedDemand - w.heldDemand := of_decide_eq_true h
  omega

theorem admitEntries_bound (s : SlotIx) (zs : List ZoneIx) (w : Works) :
    Bare q n f w (zs.foldl (fun w z => w.admitEntry s z) w)
      ∧ (zs.foldl (fun w z => w.admitEntry s z) w).admittedDemand
          ≤ w.admittedDemand + w.demandSum zs := by
  induction zs generalizing w with
  | nil => exact ⟨Bare.refl w, by simp⟩
  | cons z zs ih =>
    have b : Bare q n f w (w.admitEntry s z) := admitEntry_bare w s z
    have ha := admitEntry_admitted w s z
    have ht := ih (w.admitEntry s z)
    refine ⟨b.trans ht.1, ?_⟩
    have h2 := ht.2
    rw [b.demandSum] at h2
    have : w.demandSum (z :: zs) = w.demandOf z + w.demandSum zs := by simp [Works.demandSum]
    simp only [List.foldl_cons]
    omega

theorem admitRun_keeps (w : Works) (s : SlotIx) (h : w.runFits s = true) :
    Keeps q n f w (w.admitRun s) := by
  have hb : Keeps q n f w ((w.waitingZones s).foldl (fun w z => w.admitEntry s z) w) := by
    have b := admitEntries_bound (q := q) (n := n) (f := f) s (w.waitingZones s) w
    refine { b.1 with capacity := fun _ hc => ?_ }
    rw [b.1.site]
    have h2 := b.2
    have hf : w.demandSum (w.waitingZones s) ≤ w.site.capacity - w.admittedDemand - w.heldDemand :=
      of_decide_eq_true h
    omega
  exact hb.trans (setRunState_keeps _ s _ _)

theorem frostShort_keeps (w : Works) (z : ZoneIx) (e k : Nat) : Keeps q n f w (w.frostShort z e k) := by
  unfold frostShort
  split
  · split
    · exact Keeps.refl w
    · exact (putEntry_keeps w 0 z _).trans (notice_keeps _ _ _ _)
  · exact Keeps.refl w

theorem suspendRun_keeps (w : Works) (s : SlotIx) : Keeps false n f w (w.suspendRun s) := by
  unfold suspendRun
  split
  · exact Keeps.refl w
  · exact ((setRunState_keeps w s _ _).trans
      (Keeps.foldl _ _ fun w e => sendClosing_keeps w s _ _)).trans (judgeIrrigation_keeps _ s)

theorem suspendRuns_keeps (need : Nat) (ss : List SlotIx) (w : Works) (e k : Nat) :
    Keeps false n f w (suspendRuns need ss w e k).1 := by
  induction ss generalizing w e k with
  | nil => exact Keeps.refl w
  | cons s ss ih =>
    unfold suspendRuns
    split
    · exact Keeps.refl w
    · exact (suspendRun_keeps w s).trans (ih _ _ _)

theorem suspensionJudgment_keeps (w : Works) (z : ZoneIx) :
    Keeps false n f w (w.suspensionJudgment z) := by
  unfold suspensionJudgment
  dsimp only
  split
  · exact (suspendRuns_keeps _ _ w _ _).trans (frostShort_keeps _ z _ _)
  · exact suspendRuns_keeps _ _ w _ _

theorem passFrost_keeps (zs : List ZoneIx) (w : Works) : Keeps false n f w (passFrost zs w).1 := by
  induction zs generalizing w with
  | nil => exact Keeps.refl w
  | cons z zs ih =>
    unfold passFrost
    split
    · exact ih w
    · split
      · exact (frostShort_keeps w z _ _).trans (ih _)
      · split
        · rename_i h
          exact ((admitEntry_keeps w 0 z h).trans (judgeFrost_keeps _)).trans (ih _)
        · exact suspensionJudgment_keeps w z

theorem passReadmit_keeps (l : List (SlotIx × ZoneIx)) (w : Works) :
    Keeps false n f w (passReadmit l w).1 := by
  induction l generalizing w with
  | nil => exact Keeps.refl w
  | cons p l ih =>
    obtain ⟨s, z⟩ := p
    unfold passReadmit
    split
    · exact ih w
    · split
      · rename_i h
        exact ((admitEntry_keeps w s z h).trans (judgeIrrigation_keeps _ s)).trans (ih _)
      · exact Keeps.refl w

theorem passSuspended_keeps (l : List SlotIx) (w : Works) :
    Keeps q n f w (passSuspended l w).1 := by
  induction l generalizing w with
  | nil => exact Keeps.refl w
  | cons s l ih =>
    unfold passSuspended
    split
    · exact ih w
    · split
      · rename_i h
        exact (admitRun_keeps w s h).trans (ih _)
      · exact Keeps.refl w

theorem passQueued_keeps (l : List SlotIx) (w : Works) : Keeps q n f w (passQueued l w) := by
  induction l generalizing w with
  | nil => exact Keeps.refl w
  | cons s l ih =>
    unfold passQueued
    split
    · rename_i h
      exact (admitRun_keeps w s (Bool.and_eq_true _ _ ▸ h).2).trans (ih _)
    · exact Keeps.refl w

theorem fst_keeps {p : Works × Bool} {w v : Works} {b : Bool} (h : p = (v, b)) (k : Keeps q n f w p.1) :
    Keeps q n f w v := by
  subst h
  exact k

theorem admissionPass_keeps (w : Works) : Keeps false n f w w.admissionPass := by
  unfold admissionPass
  dsimp only
  have hf := fun zs => passFrost_keeps (n := n) (f := f) zs w
  split
  · rename_i h
    exact fst_keeps h (hf _)
  · rename_i w1 h
    have h1 : Keeps false n f w w1 := fst_keeps h (hf _)
    have hr := fun l => passReadmit_keeps (n := n) (f := f) l w1
    split
    · rename_i h
      exact h1.trans (fst_keeps h (hr _))
    · rename_i w2 h
      have h2 : Keeps false n f w w2 := h1.trans (fst_keeps h (hr _))
      have hs := fun l => passSuspended_keeps (q := false) (n := n) (f := f) l w2
      split
      · rename_i h
        exact h2.trans (fst_keeps h (hs _))
      · rename_i w3 h
        exact (h2.trans (fst_keeps h (hs _))).trans (passQueued_keeps _ _)

theorem runOffer_keeps (w : Works) : Keeps false n f w w.runOffer := by
  unfold runOffer
  split
  · refine Keeps.trans (v := { w with offer := false }) { idle := fun h => nomatch h } ?_
    exact admissionPass_keeps _
  · exact Keeps.refl w

/-! ### Events -/

theorem closeReport_keeps (w : Works) (z : ZoneIx) : Keeps false n f w (w.closeReport z) := by
  unfold closeReport
  split
  · exact ((putEntry_keeps w _ z _).trans (judgeRun_keeps _ _)).trans (offerAdmission_keeps _)
  · exact offerAdmission_keeps w

theorem settleEvents_keeps (k : Nat) (w : Works) : Keeps false n f w (settleEvents k w) := by
  induction k generalizing w with
  | zero => exact { idle := fun h => nomatch h }
  | succ k ih =>
    unfold settleEvents
    split
    · exact (runOffer_keeps w).trans (ih _)
    · split
      · exact tellLine_keeps w
      · refine Keeps.trans ?_ (ih _)
        refine Keeps.trans ?_ (closeReport_keeps _ _)
        exact (tellLine_keeps w).trans { idle := fun h => nomatch h }

theorem idle_tellLine (w : Works) (ho : w.offer = false) (hc : w.closes = []) : w.tellLine.Idle :=
  (tellLine_keeps (q := true) (n := true) (f := true) w).idle rfl ⟨ho, hc⟩

/-- An event ends with no pass owed and no close in hand. -/
theorem settleEvents_idle (k : Nat) (w : Works) : (settleEvents k w).Idle := by
  induction k generalizing w with
  | zero => exact ⟨rfl, rfl⟩
  | succ k ih =>
    unfold settleEvents
    split
    · exact ih _
    · rename_i ho
      split
      · rename_i hc
        exact idle_tellLine w (by simpa using ho) hc
      · exact ih _

theorem rdpEvent_idle (w : Works) (g : Works → Works) : (w.rdpEvent g).Idle := settleEvents_idle _ _

/-- One event: what its own work keeps, and no work left over. -/
theorem rdpEvent_keeps (w : Works) (g : Works → Works) (h : Keeps false n f w (g w)) :
    Keeps q n f w (w.rdpEvent g) :=
  let k := h.trans (settleEvents_keeps Config.eventBound (g w))
  { k with idle := fun _ _ => rdpEvent_idle w g, capacity := k.capacity }

theorem openDone_keeps (w : Works) (z : ZoneIx) : Keeps false n false w (w.openDone z) := by
  unfold openDone
  split
  · exact (Keeps.ite ((putEntry_keeps w _ z _).trans (entryOpen_keeps _ z))
      (putEntry_keeps w _ z _)).trans (judgeRun_keeps _ _)
  · exact Keeps.refl w

theorem faultEntry_keeps (w : Works) (s : SlotIx) (z : ZoneIx) (r : FaultReason) :
    Keeps false n false w (w.faultEntry s z r) :=
  (Keeps.ite ((putEntry_keeps w _ z _).trans (entryFaulted_keeps _ z))
    (putEntry_keeps w _ z _)).trans (judgeRun_keeps _ _)

theorem openFailed_keeps (w : Works) (z : ZoneIx) (r : FaultReason) :
    Keeps false n false w (w.openFailed z r) := by
  unfold openFailed
  split
  · exact faultEntry_keeps w _ z r
  · exact Keeps.refl w

theorem valveStuck_keeps (w : Works) (z : ZoneIx) : Keeps false n false w (w.valveStuck z) := by
  refine Keeps.foldl _ _ fun w s => ?_
  repeat' split
  all_goals first
    | exact Keeps.refl w
    | exact faultEntry_keeps w s z _

theorem restartEntry_keeps (w : Works) (z : ZoneIx) (s : SlotIx) :
    Keeps false n false w (w.restartEntry z s) := by
  unfold restartEntry
  split
  · refine Keeps.ite ?_ (Keeps.refl w)
    split
    · split
      · exact Keeps.ite (((putEntry_keeps w s z _).trans (entryBack_keeps _ z)).trans
          (judgeFrost_keeps _)) (putEntry_keeps w s z _)
      · exact Keeps.ite (((putEntry_keeps w s z _).trans (entryBack_keeps _ z)).trans
          (judgeFrost_keeps _)) (putEntry_keeps w s z _)
      · exact (putEntry_keeps w s z _).trans (judgeRun_keeps _ s)
      all_goals exact Keeps.refl w
    · exact Keeps.refl w
  · exact Keeps.refl w

theorem valveRestarted_keeps (w : Works) (z : ZoneIx) : Keeps false n false w (w.valveRestarted z) :=
  (Keeps.foldl _ _ fun w s => restartEntry_keeps w z s).trans (offerAdmission_keeps _)

/-! ### FRW's and ZTB's requests -/

theorem joinFrost_keeps (w : Works) (e : RunEntry) : Keeps q n f w (w.joinFrost e) := by
  unfold joinFrost
  split
  · exact ((modRun_keeps w 0 (fun r =>
        { r with entries := (r.entries.filter fun x => x.zone != e.zone) ++ [e] }) fun _ => rfl).trans
      (syncRunSlot_keeps _ _)).trans (judgeFrost_keeps _)
  · exact createRun_keeps w 0 _ _ _ _ _

theorem transfer_keeps (w : Works) (z : ZoneIx) (s : SlotIx) (e : RunEntry) :
    Keeps false n f w (w.transfer z s e) := by
  have h : ∀ x g, Keeps false n f w (((w.joinFrost x).putEntry s z g).judgeIrrigation s) := fun x g =>
    ((joinFrost_keeps w x).trans (putEntry_keeps _ s z g)).trans (judgeIrrigation_keeps _ s)
  unfold transfer
  dsimp only
  split
  · exact (h _ _).trans (renew_keeps _ z)
  · exact h _ _
  · exact (h _ _).trans (offerAdmission_keeps _)
  · exact (h _ _).trans (offerAdmission_keeps _)
  all_goals exact Keeps.refl w

theorem placeWork_keeps (w : Works) (z : ZoneIx) : Keeps false n f w (w.placeWork z) := by
  have h : ∀ e, Keeps false n f w ((w.joinFrost e).offerAdmission) := fun e =>
    (joinFrost_keeps w e).trans (offerAdmission_keeps _)
  unfold placeWork
  repeat' split
  all_goals first
    | exact Keeps.refl w
    | exact ((putEntry_keeps w 0 z _).trans (setFollowOn_keeps _ z)).trans (judgeFrost_keeps _)
    | exact transfer_keeps w z _ _
    | exact h _

theorem place_keeps (w : Works) (z : ZoneIx) : Keeps q n f w (w.place z) :=
  rdpEvent_keeps w _ (placeWork_keeps w z)

theorem withdrawWork_keeps (w : Works) (z : ZoneIx) : Keeps false n f w (w.withdrawWork z) := by
  unfold withdrawWork
  repeat' split
  all_goals first
    | exact Keeps.refl w
    | exact ((putEntry_keeps w 0 z _).trans (judgeFrost_keeps _)).trans (offerAdmission_keeps _)
    | exact (sendClosing_keeps w 0 _ z).trans (judgeFrost_keeps _)

theorem withdraw_keeps (w : Works) (z : ZoneIx) : Keeps q n f w (w.withdraw z) :=
  rdpEvent_keeps w _ (withdrawWork_keeps w z)

theorem finishZone_keeps (w : Works) (z : ZoneIx) : Keeps q n f w (w.finishZone z) := by
  refine rdpEvent_keeps w _ ?_
  split
  · split
    · exact (sendClosing_keeps w 0 _ z).trans (judgeFrost_keeps _)
    · exact Keeps.refl w
  · exact Keeps.refl w

theorem newAutoRun_keeps (w : Works) (z : ZoneIx) (t : Nat) : Keeps false n f w (w.newAutoRun z t) := by
  unfold newAutoRun
  split
  · exact latchRunFull_keeps w
  · split
    · exact createRun_keeps w _ _ _ _ _ _
    · exact (createRun_keeps w _ _ _ _ _ _).trans (offerAdmission_keeps _)

theorem autoPlace_keeps (w : Works) (z : ZoneIx) (t : Nat) : Keeps q n f w (w.autoPlace z t) := by
  refine rdpEvent_keeps w _ ?_
  split
  · split
    · exact (modRun_keeps w _ (fun r =>
        { r with entries := r.entries ++ [RunEntry.waiting z (some t)] }) fun _ => rfl).trans
        (syncRunSlot_keeps _ z)
    · exact newAutoRun_keeps w z t
  · exact newAutoRun_keeps w z t

theorem retimeEntry_keeps (w : Works) (d : ZoneIx → Nat) (s : SlotIx) (z : ZoneIx) :
    Keeps q n f w (w.retimeEntry d s z) := by
  unfold retimeEntry
  split
  · exact Keeps.refl w
  · exact (putEntry_keeps w s z _).trans (renew_keeps _ z)

theorem retimeRuns_keeps (w : Works) (d : ZoneIx → Nat) : Keeps q n f w (w.retimeRuns d) := by
  refine Keeps.foldl _ _ fun w s => ?_
  split
  · split
    · exact Keeps.foldl _ _ fun w z => retimeEntry_keeps w d s z
    · exact Keeps.refl w
  · exact Keeps.refl w

end Sys2Proof.Machine.Works
end

