-- ==== Sys2Proof/Laws/KeepsFrost.lean ====
section
/-! SUPPORT. What FRW's evaluations, VCU's reception and RDP's deadlines and requests keep. -/

namespace Sys2Proof.Machine.Works

set_option Elab.async false

variable {q n f : Bool}

/-! ### FRW -/

theorem formOwn_keeps (w : Works) (z : ZoneIx) : Keeps q n false w (w.formOwn z) :=
  modFrost_keeps w z _ (by rfl) (by rfl)

theorem blindNotice_keeps (w : Works) (z : ZoneIx) (b : Bool) : Keeps q n f w (w.blindNotice z b) := by
  unfold blindNotice
  refine Keeps.ite ?_ (Keeps.refl w)
  split <;> first | exact notice_keeps w _ _ _ | exact Keeps.refl w

theorem formFigures_keeps (w : Works) (z : ZoneIx) : Keeps q n false w (w.formFigures z) :=
  (modFrost_keeps w z _ (by rfl) (by rfl)).trans (blindNotice_keeps _ z _)

theorem placeZone_keeps (w : Works) (z : ZoneIx) (c : FrostCause) :
    Keeps q n false w (w.placeZone z c) :=
  (place_keeps w z).trans (setFrost_keeps _ z _ _ c)

theorem frostConfirmed_keeps (w : Works) (z : ZoneIx) (c : FrostCause) :
    Keeps q n false w (w.frostConfirmed z c) := by
  have h : Keeps q n false w (w.modZone z fun x => { x with confirm := 0 }) :=
    modFrost_keeps w z _ rfl rfl
  exact Keeps.ite (h.trans (placeZone_keeps _ z c)) (h.trans (setFrost_keeps _ z _ _ c))

theorem evaluateQuiet_keeps (w : Works) (z : ZoneIx) (wet : Int) (k : Bool) (c : FrostCause) :
    Keeps q n false w (w.evaluateQuiet z wet k c) := by
  have h : Keeps q n false w (w.modZone z fun y => { y with confirm := 0 }) :=
    modFrost_keeps w z _ rfl rfl
  unfold evaluateQuiet
  refine Keeps.ite (Keeps.ite (Keeps.ite (frostConfirmed_keeps w z c) ?_) (Keeps.refl w)) ?_
  · exact modFrost_keeps w z _ (by rfl) (by rfl)
  · dsimp only
    split
    · exact h
    · exact Keeps.ite (h.trans (setFrost_keeps _ z _ _ c))
        (Keeps.ite (h.trans (setFrost_keeps _ z _ _ c)) h)

theorem evaluate_keeps (w : Works) (z : ZoneIx) (wet : Int) (k : Bool) (c : FrostCause) :
    Keeps q n false w (w.evaluate z wet k c) := by
  unfold evaluate
  dsimp only
  split
  · exact evaluateQuiet_keeps w z wet k c
  · exact evaluateQuiet_keeps w z wet k c
  · exact Keeps.ite ((withdraw_keeps w z).trans (settleZone_keeps _ z c)) (Keeps.refl w)
  · exact Keeps.ite (setFrost_keeps w z _ _ c) (Keeps.refl w)
  · exact Keeps.ite (Keeps.refl w) (setFrost_keeps w z _ _ c)
  · exact Keeps.ite (settleZone_keeps w z c) (Keeps.refl w)

theorem recompute_keeps (w : Works) (z : ZoneIx) (k : Option FigSource) (c : FrostCause) :
    Keeps q n false w (w.recompute z k c) := by
  have h := formFigures_keeps (q := q) (n := n) w z
  unfold recompute
  dsimp only
  split
  · exact h.trans (evaluate_keeps _ z _ _ c)
  · exact Keeps.ite (h.trans (setFrost_keeps _ z _ _ c)) h

theorem frostEvent_keeps (w : Works) (z : ZoneIx) (k : Bool) (c : FrostCause) :
    Keeps q n false w (w.frostEvent z k c) :=
  ((formOwn_keeps w z).trans (recompute_keeps _ z _ c)).trans
    (Keeps.foldl _ _ fun w x => Keeps.ite (recompute_keeps w x _ c) (Keeps.refl w))

theorem frostLeavesUse_keeps (w : Works) (z : ZoneIx) : Keeps q n false w (w.frostLeavesUse z) :=
  (modFrost_keeps w z _ (by rfl) (by rfl)).trans (setFrost_keeps _ z _ _ _)

theorem frostActivation_keeps (w : Works) (u : ZoneIx → Bool) :
    Keeps q n false w (w.frostActivation u) :=
  ((Keeps.foldl _ w fun w z => Keeps.ite (frostLeavesUse_keeps w z) (Keeps.refl w)).trans
    (Keeps.foldl _ _ formOwn_keeps)).trans
    (Keeps.foldl _ _ fun w z => Keeps.ite (recompute_keeps w z _ _) (Keeps.refl w))

theorem protectionOff_keeps (w : Works) (z : ZoneIx) (r : Works → Works)
    (h : ∀ w, Keeps q n false w (r w)) : Keeps q n false w (w.protectionOff z r) := by
  unfold protectionOff
  dsimp only
  split
  all_goals first
    | exact Keeps.refl w
    | exact Keeps.ite ((h w).trans (setFrost_keeps _ z _ _ _))
        ((h w).trans (settleZone_keeps _ z _))

theorem protectionPossible_keeps (w : Works) (z : ZoneIx) (c : FrostCause) :
    Keeps q n false w (w.protectionPossible z c) :=
  Keeps.ite (placeZone_keeps w z c) (Keeps.refl w)

theorem thawExpired_keeps (w : Works) (z : ZoneIx) : Keeps q n false w (w.thawExpired z) :=
  ((finishZone_keeps w z).trans (modFrost_keeps _ z _ (by rfl) (by rfl))).trans
    (settleZone_keeps _ z _)

/-! ### VCU -/

theorem valveFault_keeps (w : Works) (z : ZoneIx) (c : ValveFaultCause) :
    Keeps q n f w (w.valveFault z c) := notice_keeps w _ _ _

theorem valveCleared_keeps (w : Works) (z : ZoneIx) (c : ValveClearCause) :
    Keeps q n f w (w.valveCleared z c) := notice_keeps w _ _ _

theorem openCmdFailed_keeps (w : Works) (z : ZoneIx) (r : FaultReason) :
    Keeps q n false w (w.openCmdFailed z r) := by
  have h : Keeps q n false w ((w.setCmd z none).rdpEvent fun w => w.openFailed z r) :=
    (dropCmd_keeps w z).trans (rdpEvent_keeps _ _ (openFailed_keeps _ z r))
  unfold openCmdFailed
  dsimp only
  split
  · rename_i hv
    exact h.trans (closeNow_keeps _ z (by simp [hv, ValveState.admitted]))
  · exact h

theorem renewalFailed_keeps (w : Works) (z : ZoneIx) (r : FaultReason) :
    Keeps q n f w (w.renewalFailed z r) :=
  (dropCmd_keeps w z).trans (valveFault_keeps _ z _)

theorem closeCmdFailed_keeps (w : Works) (z : ZoneIx) (k : Byte) (r : FaultReason) :
    Keeps q n false w (w.closeCmdFailed z k r) :=
  ((endValve_keeps w z .stuck rfl).trans (rdpEvent_keeps _ (fun w => w.valveStuck z) (valveStuck_keeps _ z))).trans
    (valveFault_keeps _ z _)

theorem cmdFailed_keeps (w : Works) (z : ZoneIx) (c : Cmd) (r : FaultReason) :
    Keeps q n false w (w.cmdFailed z c r) := by
  unfold cmdFailed
  split
  · exact openCmdFailed_keeps w z r
  · exact renewalFailed_keeps w z r
  · exact closeCmdFailed_keeps w z _ r

theorem renewIfCarried_keeps (w : Works) (z : ZoneIx) (c : Cmd) :
    Keeps q n f w (w.renewIfCarried z c) := Keeps.ite (renew_keeps w z) (Keeps.refl w)

/-- An acknowledged OPEN: its valve was OPENING, and goes on drawing. -/
theorem openAcknowledged_keeps (w : Works) (z : ZoneIx) (c : Cmd) (hc : (w.zone z).cmd = some c)
    (hk : c.kind = .openValve) (hr : c.renewal = false) :
    Keeps q n false w (w.openAcknowledged z c) := by
  have b : Bare q n false w ((w.setCmd z none).setValve z .opened) :=
    (dropCmd_keeps w z).toBare.trans
      (setValve_bare _ z .opened (Or.inr (Or.inr fun k h => by simp [zone_setCmd_cmd] at h)))
  have h : Keeps q n false w ((w.setCmd z none).setValve z .opened) := by
    refine { b with capacity := fun hf hle => ?_ }
    have hv : (w.zone z).valve = .opening := by
      have := hf z
      simp only [Zone.commandFits, hc] at this
      exact this hk hr
    refine (b.keeps fun x => ?_).capacity hf hle
    rw [zone_setValve_valve, zone_setCmd_valve]
    split
    · rename_i e
      intro _
      rw [e, hv]
      rfl
    · exact id
  exact ((h.trans (rdpEvent_keeps _ _ (openDone_keeps _ z))).trans (openReported_keeps _)).trans
    (renewIfCarried_keeps _ z c)

theorem closeAcknowledged_keeps (w : Works) (z : ZoneIx) : Keeps q n f w (w.closeAcknowledged z) :=
  (endValve_keeps w z .closed rfl).trans (rdpEvent_keeps _ _ (closeReport_keeps _ z))

theorem followOnLost_keeps (w : Works) (z : ZoneIx) : Keeps false n f w (w.followOnLost z) :=
  Keeps.ite (((putEntry_keeps w 0 z _).trans (judgeFrost_keeps _)).trans (offerAdmission_keeps _))
    (offerAdmission_keeps w)

theorem followOnAcknowledged_keeps (w : Works) (z : ZoneIx) :
    Keeps q n f w (w.followOnAcknowledged z) := by
  have hclosed : Keeps q n f w ((w.setCmd z none).setValve z .closed) := endValve_keeps w z .closed rfl
  unfold followOnAcknowledged
  dsimp only
  split
  · rename_i h
    simp only [Bool.and_eq_true] at h
    have hfit : ((w.setCmd z none).setValve z .closed).demandOf z
        ≤ ((w.setCmd z none).setValve z .closed).freeCapacity := of_decide_eq_true h.2
    have b : Bare q n f w ((w.setCmd z none).openRequest z) :=
      (dropCmd_keeps w z).toBare.trans (openRequest_bare _ z)
    refine { b with capacity := fun hf hle => ?_ }
    have hadd : ((w.setCmd z none).openRequest z).admittedDemand
        ≤ ((w.setCmd z none).setValve z .closed).admittedDemand
          + ((w.setCmd z none).setValve z .closed).demandOf z := by
      refine admitted_le_add _ _ z (b.tables.trans hclosed.tables.symm) fun x hx => ?_
      unfold openRequest
      rw [zone_createCmd_valve, zone_setValve_valve, zone_setValve_valve, if_neg hx, if_neg hx]
      exact id
    have hcap := hclosed.capacity hf hle
    rw [b.site]
    rw [hclosed.site] at hcap
    unfold freeCapacity at hfit
    rw [hclosed.site] at hfit
    omega
  · exact hclosed.trans (rdpEvent_keeps _ _ (followOnLost_keeps _ z))

theorem cmdDone_keeps (w : Works) (z : ZoneIx) (c : Cmd) (hc : (w.zone z).cmd = some c) :
    Keeps q n false w (w.cmdDone z c) := by
  unfold cmdDone
  split
  · exact dropCmd_keeps w z
  · rename_i hk hr
    exact openAcknowledged_keeps w z c hc hk hr
  · exact followOnAcknowledged_keeps w z
  · exact closeAcknowledged_keeps w z

theorem takeAck_keeps (w : Works) (src : NodeId) (p : Bytes) : Keeps q n false w (w.takeAck src p) := by
  unfold takeAck
  split
  · split
    · rename_i hc _
      refine Keeps.ite ?_ (Keeps.refl w)
      split
      · exact cmdDone_keeps w _ _ hc
      · exact cmdFailed_keeps w _ _ _
      · exact cmdFailed_keeps w _ _ _
    · exact Keeps.refl w
  · exact Keeps.refl w

theorem ackDeadline_keeps (w : Works) (z : ZoneIx) : Keeps q n false w (w.ackDeadline z) := by
  unfold ackDeadline
  split
  · split
    · exact Keeps.ite (Keeps.ite (attempt_keeps w z) (cmdFailed_keeps w z _ _)) (Keeps.refl w)
    · exact Keeps.refl w
  · exact Keeps.refl w

theorem clearStuck_keeps (w : Works) (z : ZoneIx) (h : (w.zone z).valve = .stuck) :
    Keeps q n f w (w.clearStuck z) :=
  (setValve_keeps w z .closed (Or.inr (Or.inl (by simp [h]))) fun h => nomatch h).trans
    (rdpEvent_keeps _ offerAdmission (offerAdmission_keeps _))

theorem positionReading_keeps (w : Works) (z : ZoneIx) (v : Int) :
    Keeps q n false w (w.positionReading z v) := by
  unfold positionReading
  split
  · rename_i h
    exact ((clearStuck_keeps w z h.2).trans (valveCleared_keeps _ z _)).trans
      (protectionPossible_keeps _ z _)
  · split
    · rename_i h
      exact ((setValve_keeps w z .stuck (Or.inr (Or.inl (by simp [h.2.1]))) fun h => nomatch h).trans
        (rdpEvent_keeps _ (fun w => w.valveStuck z) (valveStuck_keeps _ z))).trans
        (valveFault_keeps _ z _)
    · exact Keeps.refl w

theorem clearValve_keeps (w : Works) (z : ZoneIx) (h : (w.zone z).valve = .stuck) :
    Keeps q n false w (w.clearValve z) :=
  ((clearStuck_keeps w z h).trans (protectionPossible_keeps _ z _)).trans (valveCleared_keeps _ z _)

theorem valveRestart_keeps (w : Works) (z : ZoneIx) : Keeps q n false w (w.valveRestart z) := by
  have h : Keeps q n false w
      (((w.setCmd z none).setValve z .closed).rdpEvent fun w => w.valveRestarted z) :=
    (endValve_keeps w z .closed rfl).trans (rdpEvent_keeps _ _ (valveRestarted_keeps _ z))
  exact Keeps.ite (h.trans (valveCleared_keeps _ z _)) h

theorem startBroadcast_keeps (w : Works) : Keeps q n f w w.startBroadcast :=
  (submitUrgent_keeps w _ _ _).trans {}

theorem dropFlowDeadlines_keeps (w : Works) : Keeps q n f w w.dropFlowDeadlines := by
  refine { numbers := fun h => ⟨h.1, fun j r hr => ?_⟩ }
  have hr : (w.run j).map (fun x => { x with flowDeadline := none }) = some r := by
    rw [← hr]
    exact (mapRows_at (fun r : Option Run => r.map fun x => { x with flowDeadline := none }) w.runs
      j.val j.isLt).symm
  cases hw : w.run j with
  | none => simp [hw] at hr
  | some x =>
    simp only [hw, Option.map_some, Option.some.injEq] at hr
    rw [← hr]
    exact h.2 j x hw

theorem leakCheck_keeps (w : Works) (v : Int) : Keeps q n f w (w.leakCheck v) :=
  Keeps.ite ((latchLeak_keeps w).trans (notice_keeps _ _ _ _)) (Keeps.refl w)

theorem flowReading_keeps (w : Works) (v : Int) : Keeps q n f w (w.flowReading v) :=
  (Keeps.ite (dropFlowDeadlines_keeps w) (Keeps.refl w)).trans (leakCheck_keeps _ v)

/-! ### RDP's deadlines and requests -/

theorem gatherExpired_keeps (w : Works) (s : SlotIx) (r : Run) :
    Keeps q n f w (w.gatherExpired s r) :=
  rdpEvent_keeps w _ (Keeps.ite ((setRunState_keeps w s _ _).trans (offerAdmission_keeps _))
    (setRunState_keeps w s _ _))

theorem gatherDeadline_keeps (w : Works) (s : SlotIx) : Keeps q n f w (w.gatherDeadline s) := by
  unfold gatherDeadline
  split
  · split
    · exact Keeps.ite (gatherExpired_keeps w s _) (Keeps.refl w)
    · exact Keeps.refl w
  · exact Keeps.refl w

theorem entryComplete_keeps (w : Works) (s : SlotIx) (z : ZoneIx) :
    Keeps q n f w (w.entryComplete s z) :=
  rdpEvent_keeps w _ (((putEntry_keeps w s z _).trans (sendClosing_keeps _ s _ z)).trans
    (judgeRun_keeps _ s))

theorem completionDeadline_keeps (w : Works) (s : SlotIx) (z : ZoneIx) :
    Keeps q n f w (w.completionDeadline s z) := by
  unfold completionDeadline
  split
  · split
    · split
      · exact Keeps.ite (entryComplete_keeps w s z) (Keeps.refl w)
      · exact Keeps.refl w
    · exact Keeps.refl w
  · exact Keeps.refl w

theorem eachEntry_keeps (w : Works) (s : SlotIx) (st : EntryState) (g : Works → ZoneIx → Works)
    (h : ∀ w z, Keeps q n f w (g w z)) : Keeps q n f w (w.eachEntry s st g) := by
  unfold eachEntry
  split
  · exact Keeps.foldl _ _ h
  · exact Keeps.refl w

theorem withdrawWaiting_keeps (w : Works) (s : SlotIx) : Keeps q n f w (w.withdrawWaiting s) :=
  eachEntry_keeps w s _ _ fun w z => putEntry_keeps w s z _

theorem closeAll_keeps (w : Works) (s : SlotIx) (c : EntryCause) :
    Keeps false n f w (w.closeAll s c) := by
  unfold closeAll
  split
  · exact Keeps.foldl _ _ fun w e => sendClosing_keeps w s c _
  · exact Keeps.refl w

theorem faultRun_keeps (w : Works) (s : SlotIx) : Keeps false n f w (w.faultRun s) :=
  (((closeAll_keeps w s _).trans (withdrawWaiting_keeps _ s)).trans (setRunState_keeps _ s _ _)).trans
    (judgeIrrigation_keeps _ s)

theorem flowExpired_keeps (w : Works) (s : SlotIx) (r : Run) : Keeps q n f w (w.flowExpired s r) := by
  have h : Keeps q n f w
      ((w.flowFaultNotice s r).modRun s fun x => { x with flowDeadline := none }) :=
    ((latchFlowFault_keeps w).trans (notice_keeps _ _ _ _)).trans
      (modRun_keeps _ s _ (by intro _; rfl))
  exact h.trans (rdpEvent_keeps _ (fun w => if s = 0 then w else w.faultRun s)
    (Keeps.ite (Keeps.refl _) (faultRun_keeps _ s)))

theorem flowConfirmDeadline_keeps (w : Works) (s : SlotIx) :
    Keeps q n f w (w.flowConfirmDeadline s) := by
  unfold flowConfirmDeadline
  split
  · split
    · exact Keeps.ite (flowExpired_keeps w s _) (Keeps.refl w)
    · exact Keeps.refl w
  · exact Keeps.refl w

theorem cancelMoving_keeps (w : Works) (s : SlotIx) : Keeps false n f w (w.cancelMoving s) :=
  ((((eachEntry_keeps w s _ _ fun w z => putEntry_keeps w s z _).trans (closeAll_keeps _ s _)).trans
    (withdrawWaiting_keeps _ s)).trans (setRunState_keeps _ s _ _)).trans (judgeIrrigation_keeps _ s)

theorem cancelIrrigation_keeps (w : Works) (s : SlotIx) (r : Run) :
    Keeps q n f w (w.cancelIrrigation s r) := by
  refine rdpEvent_keeps w _ ?_
  split
  iterate 3 exact (withdrawWaiting_keeps w s).trans (setRunState_keeps _ s _ _)
  iterate 3 exact cancelMoving_keeps w s
  · refine modRun_keeps w s _ fun x => ?_
    split <;> rfl
  all_goals exact Keeps.refl w

theorem setProtect_keeps (w : Works) (z : ZoneIx) (on : Bool) :
    Keeps q n false w (w.setProtect z on) :=
  Keeps.ite (Keeps.refl w) ((modFrost_keeps w z _ (by rfl) (by rfl)).trans (touch_keeps _ z))

theorem cancelMember_keeps (w : Works) (z : ZoneIx) : Keeps false n false w (w.cancelMember z) :=
  (setProtect_keeps w z false).trans (protectionOff_keeps _ z (fun w => (w.withdrawWork z).runOffer)
    fun w => (withdrawWork_keeps w z).trans (runOffer_keeps _))

theorem cancelFrost_keeps (w : Works) : Keeps q n false w w.cancelFrost :=
  rdpEvent_keeps w (fun w => (w.frostMembers.foldl cancelMember w).judgeFrost)
    ((Keeps.foldl _ w cancelMember_keeps).trans (judgeFrost_keeps _))

theorem openRun_keeps (w : Works) (s : SlotIx) (items : List (ZoneIx × Nat)) :
    Keeps q n f w (w.openRun s items) :=
  rdpEvent_keeps w _ ((createRun_keeps w s _ _ _ _ _).trans (offerAdmission_keeps _))

end Sys2Proof.Machine.Works
end

