-- ==== Sys2Proof/Laws/KeepsNodes.lean ====
section
/-! SUPPORT. What NRS's, ENU's and ZTB's operations keep, and an activation after it has put the bank in
force. -/

namespace Sys2Proof.Machine.Works

set_option Elab.async false

variable {q n f : Bool}

/-! ### NRS -/

theorem tellFrost_keeps (w : Works) (z : Option ZoneIx) : Keeps q n false w (w.tellFrost z) := by
  unfold tellFrost
  split
  · exact frostEvent_keeps w _ _ _
  · exact Keeps.refl w

theorem tellDispatcher_keeps (w : Works) (id : NodeId) : Keeps q n f w (w.tellDispatcher id) := by
  unfold tellDispatcher
  split
  · exact rdpEvent_keeps w offerAdmission (offerAdmission_keeps w)
  · exact Keeps.refl w

theorem nodeTo_keeps (w : Works) (e : EntryIx) (s : NodeState) (g : Entry → Entry) :
    Keeps q false f w (w.nodeTo e s g) :=
  (modEntry_keeps w e _).trans (modEntry_keeps _ e _)

theorem becomeLost_keeps (w : Works) (e : EntryIx) : Keeps q false false w (w.becomeLost e) :=
  ((nodeTo_keeps w e _ _).trans (notice_keeps _ _ _ _)).trans (tellFrost_keeps _ _)

theorem becomeSilent_keeps (w : Works) (e : EntryIx) : Keeps q false false w (w.becomeSilent e) :=
  (nodeTo_keeps w e _ _).trans (tellFrost_keeps _ _)

theorem judgeDeadlines_keeps (w : Works) (e : EntryIx) :
    Keeps q false false w (w.judgeDeadlines e) :=
  Keeps.ite (Keeps.ite ((becomeSilent_keeps w e).trans (becomeLost_keeps _ e))
    (becomeSilent_keeps w e)) (Keeps.refl w)

theorem nowActive_keeps (w : Works) (e : EntryIx) : Keeps q false false w (w.nowActive e) :=
  ((tellFrost_keeps w _).trans (tellDispatcher_keeps _ _)).trans (judgeDeadlines_keeps _ e)

theorem acceptFrame_keeps (w : Works) (e : EntryIx) (k : Byte) :
    Keeps q false false w (w.acceptFrame e k) := by
  have h : Keeps q false false w (w.modEntry e fun x => { x with lastSeq := some k }) :=
    modEntry_keeps w e _
  unfold acceptFrame
  dsimp only
  split
  · exact (h.trans (nodeTo_keeps _ e _ _)).trans (nowActive_keeps _ e)
  · exact ((h.trans (nodeTo_keeps _ e _ _)).trans (notice_keeps _ _ _ _)).trans (nowActive_keeps _ e)
  all_goals exact h

theorem mute_keeps (w : Works) (e : EntryIx) : Keeps q false false w (w.mute e) :=
  ((nodeTo_keeps w e _ _).trans (notice_keeps _ _ _ _)).trans (tellFrost_keeps _ _)

theorem countFrame_keeps (w : Works) (e : EntryIx) : Keeps q false false w (w.countFrame e).1 := by
  have h : Keeps q false false w (w.modEntry e fun x => { x with frames := min (x.frames + 1) 255 }) :=
    modEntry_keeps w e _
  unfold countFrame
  dsimp only
  split
  · exact h.trans (mute_keeps _ e)
  · exact h

theorem gate_keeps (w : Works) (e : EntryIx) (k : Byte) : Keeps q false false w (w.gate e k).1 := by
  have h : Keeps q false false w (w.modEntry e fun x => { x with lastHeard := w.time }) :=
    modEntry_keeps w e _
  have h2 : Keeps q false false w (if (w.entry e).lastSeq = some k then
      (w.modEntry e fun x => { x with lastHeard := w.time }, false)
      else ((w.modEntry e fun x => { x with lastHeard := w.time }).acceptFrame e k).countFrame e).1 := by
    split
    · exact h
    · exact (h.trans (acceptFrame_keeps _ e k)).trans (countFrame_keeps _ e)
  unfold gate
  dsimp only
  split <;> first | exact h | exact h2

theorem closeEntryWindow_keeps (w : Works) (e : EntryIx) :
    Keeps q false false w (w.closeEntryWindow e) := by
  have h : Keeps q false false w (w.modEntry e fun x => { x with frames := 0 }) :=
    modEntry_keeps w e _
  have h2 := h.trans (modEntry_keeps _ e fun x => { x with muteCloses := x.muteCloses - 1 })
  exact Keeps.ite (Keeps.ite (Keeps.ite ((h2.trans (nodeTo_keeps _ e _ _)).trans (nowActive_keeps _ e))
    h2) h) (Keeps.refl w)

theorem rosterClose_keeps (w : Works) : Keeps q false false w w.rosterClose :=
  Keeps.foldl _ w closeEntryWindow_keeps

theorem goodReading_keeps (w : Works) (e : EntryIx) : Keeps q false f w (w.goodReading e) :=
  modEntry_keeps w e _

theorem badReading_keeps (w : Works) (e : EntryIx) (c k : Nat) :
    Keeps q false false w (w.badReading e c k) := by
  have h : Keeps q false false w (w.modEntry e fun x => { x with badStreak := min (x.badStreak + 1) 15 }) :=
    modEntry_keeps w e _
  exact Keeps.ite (((h.trans (nodeTo_keeps _ e _ _)).trans (notice_keeps _ _ _ _)).trans
    (tellFrost_keeps _ _)) h

theorem reserveEntry_keeps (w : Works) (e : EntryIx) (i : NodeId) (r : Role) (z : Option ZoneIx) :
    Keeps q false f w (w.reserveEntry e i r z) := nodeTo_keeps w e _ _

theorem assignEntry_keeps (w : Works) (e : EntryIx) (z : Option ZoneIx) :
    Keeps q false false w (w.assignEntry e z) :=
  Keeps.ite (Keeps.refl w) ((((modEntry_keeps w e _).trans (modEntry_keeps _ e _)).trans
    (tellFrost_keeps _ _)).trans (tellFrost_keeps _ _))

theorem releaseEntry_keeps (w : Works) (e : EntryIx) : Keeps q false false w (w.releaseEntry e) := by
  unfold releaseEntry
  dsimp only
  split
  · exact ((setCtx_keeps w _ _).trans (nodeTo_keeps _ e _ _)).trans (tellFrost_keeps _ _)
  · exact (nodeTo_keeps w e _ _).trans (tellFrost_keeps _ _)

theorem restoreEntry_keeps (w : Works) (e : EntryIx) : Keeps q false false w (w.restoreEntry e) :=
  (nodeTo_keeps w e _ _).trans (nowActive_keeps _ e)

theorem rosterStart_keeps (w : Works) : Keeps q false f w w.rosterStart :=
  { nodes := fun h => nomatch h }

theorem silenceExpiry_keeps (w : Works) (e : EntryIx) : Keeps q false false w (w.silenceExpiry e) :=
  Keeps.ite (becomeSilent_keeps w e) (Keeps.refl w)

theorem lossExpiry_keeps (w : Works) (e : EntryIx) : Keeps q false false w (w.lossExpiry e) :=
  Keeps.ite (becomeLost_keeps w e) (Keeps.refl w)

/-! ### ENU -/

theorem refuse_keeps (w : Works) (i : NodeId) (r : RefuseReason) : Keeps q n f w (w.refuse i r) :=
  submitCommand_keeps w _ _ _

theorem sheetAck_keeps (w : Works) (i : NodeId) (m a : Bool) : Keeps q n f w (w.sheetAck i m a) :=
  submitCommand_keeps w _ _ _

theorem completeExchange_keeps (w : Works) (c : CtxIx) (x : Ctx) :
    Keeps q false false w (w.completeExchange c x) :=
  (((setCtx_keeps w c none).trans (nodeTo_keeps _ _ _ _)).trans (notice_keeps _ _ _ _)).trans
    (nowActive_keeps _ _)

theorem returnEntry_keeps (w : Works) (x : Ctx) : Keeps q false f w (w.returnEntry x) := by
  unfold returnEntry
  split <;> exact nodeTo_keeps w _ _ _

theorem failExchange_keeps (w : Works) (c : CtxIx) (x : Ctx) (r : FailReason) :
    Keeps q false false w (w.failExchange c x r) :=
  (((setCtx_keeps w c none).trans (returnEntry_keeps _ x)).trans (notice_keeps _ _ _ _)).trans
    (tellFrost_keeps _ _)

theorem afterAccept_keeps (w : Works) (c : CtxIx) (x : Ctx) (k : Bool) :
    Keeps q false false w (w.afterAccept c x k) :=
  Keeps.ite (setCtx_keeps w c _) (completeExchange_keeps w c x)

theorem sendAccept_keeps (w : Works) (c : CtxIx) (x : Ctx) (k : Bool) :
    Keeps q false false w (w.sendAccept c x k) :=
  (submitCommand_keeps w _ _ _).trans (afterAccept_keeps _ c x k)

theorem tellRestart_keeps (w : Works) (i : NodeId) : Keeps q n false w (w.tellRestart i) := by
  unfold tellRestart
  split
  · exact valveRestart_keeps w _
  · exact Keeps.refl w

theorem beginEnrolling_keeps (w : Works) (e : EntryIx) (g : Entry → Entry) :
    Keeps q false false w (w.beginEnrolling e g) :=
  (nodeTo_keeps w e _ _).trans (tellFrost_keeps _ _)

theorem acceptJoin_keeps (w : Works) (c : CtxIx) (e : EntryIx) (t : ReturnState) (g : Entry → Entry)
    (r : Option NodeId) (j : Join) : Keeps q false false w (w.acceptJoin c e t g r j) := by
  have h := fun x => (setCtx_keeps (q := q) (f := false) w c x).trans (beginEnrolling_keeps _ e g)
  unfold acceptJoin
  dsimp only
  split
  · exact ((h _).trans (tellRestart_keeps _ _)).trans (sendAccept_keeps _ c _ _)
  · exact (h _).trans (sendAccept_keeps _ c _ _)

theorem joinUnknown_keeps (w : Works) (src : NodeId) (j : Join) :
    Keeps q false false w (w.joinUnknown src j) := by
  unfold joinUnknown
  split
  · exact refuse_keeps w src _
  · exact refuse_keeps w src _
  · split
    · exact acceptJoin_keeps w _ _ _ _ _ j
    · exact refuse_keeps w src _

theorem joinReserved_keeps (w : Works) (e : EntryIx) (src : NodeId) (j : Join) :
    Keeps q false false w (w.joinReserved e src j) := by
  refine Keeps.ite (refuse_keeps w src _) (Keeps.ite (refuse_keeps w src _) ?_)
  split
  · exact acceptJoin_keeps w _ e _ _ _ j
  · exact refuse_keeps w src _

theorem joinEnrolled_keeps (w : Works) (e : EntryIx) (src : NodeId) (j : Join) :
    Keeps q false false w (w.joinEnrolled e src j) := by
  refine Keeps.ite (refuse_keeps w src _) ?_
  split
  · exact acceptJoin_keeps w _ e _ _ _ j
  · exact refuse_keeps w src _

theorem rejoin_keeps (w : Works) (e : EntryIx) (src : NodeId) (j : Join) :
    Keeps q false false w (w.rejoin e src j) := by
  refine Keeps.ite (refuse_keeps w src _) ?_
  split
  · split
    · exact (setCtx_keeps w _ _).trans (sendAccept_keeps _ _ _ _)
    · exact Keeps.refl w
  · exact Keeps.refl w

theorem joinByState_keeps (w : Works) (e : EntryIx) (s : NodeState) (src : NodeId) (j : Join) :
    Keeps q false false w (w.joinByState e s src j) := by
  unfold joinByState
  split
  · exact joinReserved_keeps w e src j
  · exact rejoin_keeps w e src j
  iterate 5 exact joinEnrolled_keeps w e src j
  · exact Keeps.refl w

theorem takeJoin_keeps (w : Works) (src : NodeId) (p : Bytes) :
    Keeps q false false w (w.takeJoin src p) := by
  unfold takeJoin
  split
  · exact latchStray_keeps w
  · refine Keeps.ite (latchStray_keeps w) ?_
    split
    · exact refuse_keeps w src _
    · exact Keeps.ite (joinUnknown_keeps w src _) (refuse_keeps w src _)
    · exact Keeps.ite (joinByState_keeps w _ _ src _) (refuse_keeps w src _)

theorem newSheet_keeps (w : Works) (c : CtxIx) (x : Ctx) (src : NodeId) (s : Sheet) :
    Keeps q false false w (w.newSheet c x src s) := by
  have h : ∀ y a, Keeps q false false w ((w.setCtx c y).sheetAck src s.mark a) := fun y a =>
    (setCtx_keeps w c y).trans (sheetAck_keeps _ src _ a)
  exact Keeps.ite ((h _ _).trans (setCtx_keeps _ c _)) ((h _ _).trans (completeExchange_keeps _ c _))

theorem sheetInExchange_keeps (w : Works) (c : CtxIx) (x : Ctx) (src : NodeId) (s : Sheet) :
    Keeps q false false w (w.sheetInExchange c x src s) := by
  refine Keeps.ite (Keeps.ite (newSheet_keeps w c x src s)
    ((refuse_keeps w src _).trans (failExchange_keeps _ c x _))) ?_
  split
  · exact sheetAck_keeps w src _ _
  · exact Keeps.refl w

theorem sheetByState_keeps (w : Works) (e : EntryIx) (st : NodeState) (src : NodeId) (s : Sheet) :
    Keeps q false false w (w.sheetByState e st src s) := by
  unfold sheetByState
  split
  · split
    · split
      · exact sheetInExchange_keeps w _ _ src s
      · exact Keeps.refl w
    · exact Keeps.refl w
  iterate 5 exact sheetAck_keeps w src _ _
  all_goals exact latchStray_keeps w

theorem takeSheet_keeps (w : Works) (src : NodeId) (p : Bytes) :
    Keeps q false false w (w.takeSheet src p) := by
  unfold takeSheet
  split
  · exact latchStray_keeps w
  · refine Keeps.ite (latchStray_keeps w) ?_
    split
    · exact sheetByState_keeps w _ _ src _
    all_goals exact latchStray_keeps w

theorem takeEarly_keeps (w : Works) (src : NodeId) (h : Hit) :
    Keeps q false f w (w.takeEarly src h) := by
  unfold takeEarly
  split
  · refine Keeps.ite ?_ (Keeps.refl w)
    split
    · exact { nodes := fun h => nomatch h }
    · exact Keeps.refl w
  all_goals exact Keeps.refl w

theorem sheetExpiry_keeps (w : Works) (c : CtxIx) : Keeps q false false w (w.sheetExpiry c) := by
  unfold sheetExpiry
  split
  · split
    · exact Keeps.ite (failExchange_keeps w c _ _) (Keeps.refl w)
    · exact Keeps.refl w
  · exact Keeps.refl w

/-! ### ZTB -/

theorem foldWindow_keeps (w : Works) (a : Vector Acc 40) (r : Vector FoldRow 40) :
    Keeps q n false w (w.foldWindow a r) := by
  refine Keeps.foldl _ w fun w z => Keeps.ite (modFrost_keeps w z _ ?_ ?_) (Keeps.refl w)
  all_goals
    unfold Zone.fold
    split <;> rfl

theorem sendGroups_keeps (w : Works) (i : WinIx) (t : Nat) (a : Vector Acc 40)
    (gs : List (List ZoneIx)) : Keeps q n f w (w.sendGroups i t a gs) :=
  Keeps.foldl _ w fun w _ => report_keeps w _

theorem sendReports_keeps (w : Works) (i : WinIx) (t : Nat) (a : Vector Acc 40) :
    Keeps q n f w (w.sendReports i t a) := sendGroups_keeps w i t a _

theorem trigger_keeps (w : Works) (z : ZoneIx) : Keeps q n f w (w.trigger z) := by
  unfold trigger
  split
  · exact Keeps.ite (autoPlace_keeps w z _) (Keeps.refl w)
  · exact Keeps.refl w

theorem triggerZones_keeps (w : Works) (zs : List ZoneIx) : Keeps q n f w (w.triggerZones zs) :=
  Keeps.foldl _ w trigger_keeps

theorem runTrigger_keeps (w : Works) : Keeps q n f w w.runTrigger := triggerZones_keeps w _

theorem zoneActivation_keeps (w : Works) (u : ZoneIx → Bool) :
    Keeps q n false w (w.zoneActivation u) :=
  Keeps.foldl _ w fun w z => Keeps.ite (touch_keeps w z)
    ((touch_keeps w z).trans (modFrost_keeps _ z Zone.emptied rfl rfl))

/-! ### Activation -/

theorem offerIfGrown_keeps (w : Works) (g : Bool) : Keeps q n f w (w.offerIfGrown g) :=
  rdpEvent_keeps w _ (Keeps.ite (offerAdmission_keeps w) (Keeps.refl w))

/-- The blocks' work at an activation, once the bank is in force (R184). -/
theorem activate_keeps (w : Works) (b : Tables) :
    Keeps q n false { w with tables := b } (w.activate b) :=
  (((retimeRuns_keeps _ _).trans (zoneActivation_keeps _ _)).trans (frostActivation_keeps _ _)).trans
    (offerIfGrown_keeps _ _)

/-- A bank that passes every check has room for the admitted demand (R183, CAPACITY). -/
theorem validate_capacity (w : Works) (b : Tables) (h : w.validate b = none) :
    ({ w with tables := b } : Works).admittedDemand ≤ b.site.capacity := by
  have hc : w.capacityGood b = true := by
    by_contra hn
    simp [validate, siteFault, hn] at h
  unfold capacityGood at hc
  simp only [Bool.and_eq_true] at hc
  exact of_decide_eq_true hc.1

/-- An activation of a bank that passes every check keeps the capacity law. -/
theorem activate_lawful (w : Works) (b : Tables) (h : w.validate b = none) (hw : w.Lawful) :
    (w.activate b).Lawful :=
  (activate_keeps (q := true) (n := true) w b).lawful
    ⟨hw.commands, validate_capacity w b h⟩

theorem commitNotice_keeps (w : Works) (r : Option CommitFault) (t : Nat) :
    Keeps q n f w (w.commitNotice r t) := by
  unfold commitNotice
  split <;> exact notice_keeps w _ _ _

/-! ### Controls, time and pulses -/

theorem setControls_keeps (w : Works) (z : ZoneIx) (a p : Option Bool) :
    Keeps q n false w (State.setControls w z a p) := by
  have h : Keeps q n false w (State.writeControls w z a p) :=
    Keeps.ite (Keeps.refl w) ((modFrost_keeps w z _ (by rfl) (by rfl)).trans (touch_keeps _ z))
  unfold State.setControls State.protectionChanged
  split
  · exact h.trans (protectionOff_keeps _ z (fun w => w.withdraw z) fun w => withdraw_keeps w z)
  · exact h.trans (protectionPossible_keeps _ z _)
  · exact h

theorem thawExpiry_keeps (w : Works) (z : ZoneIx) : Keeps q n false w (w.thawExpiry z) := by
  unfold thawExpiry
  split
  · exact Keeps.ite (thawExpired_keeps w z) (Keeps.refl w)
  · exact Keeps.refl w

theorem alertExpiry_keeps (w : Works) : Keeps q n f w w.alertExpiry := by
  unfold alertExpiry
  split
  · exact Keeps.ite (sendAlert_keeps w) (Keeps.refl w)
  · exact Keeps.refl w

theorem drainExpiry_keeps (w : Works) : Keeps q n f w w.drainExpiry := by
  unfold drainExpiry
  split
  · exact Keeps.ite (endDrain_keeps w) (Keeps.refl w)
  · exact Keeps.refl w

theorem leadEnd_keeps (w : Works) : Keeps q n f w w.leadEnd := by
  unfold leadEnd
  split
  · exact Keeps.ite (setPhase_keeps w _ _) (Keeps.refl w)
  · exact Keeps.refl w

theorem driveEnd_keeps (w : Works) : Keeps q n f w w.driveEnd := by
  unfold driveEnd
  split
  · exact Keeps.ite (Keeps.ite (setPhase_keeps w _ _)
      ((setPhase_keeps w _ _).trans (believe_keeps _ _ _))) (Keeps.refl w)
  · exact Keeps.refl w

theorem tailEnd_keeps (w : Works) : Keeps q n f w w.tailEnd := by
  unfold tailEnd
  split
  · exact Keeps.ite (Keeps.ite (setPhase_keeps w _ _)
      ((setPhase_keeps w _ _).trans (lineAfterPulse_keeps _ _ _))) (Keeps.refl w)
  · exact Keeps.refl w

theorem gapEnd_keeps (w : Works) : Keeps q n f w w.gapEnd := by
  unfold gapEnd
  split
  · exact Keeps.ite ((modLine_keeps w _).trans (beginPulse_keeps _)) (Keeps.refl w)
  · exact Keeps.refl w

end Sys2Proof.Machine.Works
end

