-- ==== Sys2Proof/WellFormed.lean ====
section
/-! DEFINITION. Which commands name something the part has: an index inside its table, a frame of at
least one byte. -/

namespace Sys2Proof

/-- A command is well formed when its zone is below 40 (05), its entry below 256 (02), its context
below 4 (R48), its slot below 12 (R119), a completion deadline's slot an irrigation slot (R121), and
a frame it brings has at least one byte. -/
def WellFormed (i : Instr) : Bool :=
  match i with
  | .fieldArrival frame => !frame.isEmpty
  | .uplinkFrameReceived frame => !frame.isEmpty
  | .silenceDeadline e => decide (e < 256)
  | .lossDeadline e => decide (e < 256)
  | .sheetDeadline c => decide (c < 4)
  | .thawDeadline z => decide (z < 40)
  | .gatherDeadline slot => decide (0 < slot) && decide (slot < 12)
  | .completionDeadline slot z => decide (0 < slot) && decide (slot < 12) && decide (z < 40)
  | .flowConfirmDeadline slot => decide (slot < 12)
  | .ackDeadline z => decide (z < 40)
  | .hardReset | .softReset | .powerOn => true
  | .fclTakeFrame | .fclHandOff | .swuTakeReading | .join | .sheet | .earlyTraffic | .valveAck => true
  | .uplinkFrameSent | .fieldTxHandOff | .fieldTxAnswer _ _ | .answerWaitExpiry => true
  | .deviceTimeTick | .windowClose _ | .alertTimerExpiry | .drainDeadline => true
  | .pulseLeadEnd | .pulseDriveEnd | .pulseEnd | .pulseGapEnd => true
  | .timeRead _ | .timeSet _ | .start _ | .reset _ => true
  | .stageWrite _ | .stageRead _ | .stageCommit _ | .stageDiscard _ | .tableRead _ => true
  | .nodeRead _ | .nodeProbe _ | .reserve _ | .assign _ | .release _ | .restore _ => true
  | .zoneRead _ | .zoneControlIfSet _ | .clearValve _ => true
  | .runOpen _ | .runCancel _ | .runRead _ | .windowRead _ => true
  | .passSend _ | .watchSet _ | .watchClear _ | .noticeMask _ | .statusRead _ => true
  | .malformedRequest _ => true

end Sys2Proof
end

