-- ==== Sys2Proof/Laws/PerInstr.lean ====
section
/-! SUPPORT. One statement of every command as syntax: what well-formedness says of it. -/

namespace Sys2Proof.Laws.IndicesInRange

set_option Elab.async false

/-- The pairs a command needs in order: each index below the length of its table (05, 02, R48, R119),
and an irrigation slot above 0. -/
def bounds : Instr → List (Nat × Nat)
  | .silenceDeadline e => [(e, 256)]
  | .lossDeadline e => [(e, 256)]
  | .sheetDeadline c => [(c, 4)]
  | .thawDeadline z => [(z, 40)]
  | .gatherDeadline slot => [(0, slot), (slot, 12)]
  | .completionDeadline slot z => [(0, slot), (slot, 12), (z, 40)]
  | .flowConfirmDeadline slot => [(slot, 12)]
  | .ackDeadline z => [(z, 40)]
  | _ => []

/-- The frames a command brings into the part. -/
def frames : Instr → List Bytes
  | .fieldArrival frame => [frame]
  | .uplinkFrameReceived frame => [frame]
  | _ => []

/-- A command is well formed exactly when its indices are in range and its frames hold a byte. -/
def Statement (i : Instr) : Prop :=
  WellFormed i = true ↔ (∀ p ∈ bounds i, p.1 < p.2) ∧ ∀ f ∈ frames i, f ≠ []

theorem hardReset : Statement .hardReset := by
  simp [Statement, WellFormed, bounds, frames]

theorem softReset : Statement .softReset := by
  simp [Statement, WellFormed, bounds, frames]

theorem fieldArrival (frame : Bytes) : Statement (.fieldArrival frame) := by
  simp [Statement, WellFormed, bounds, frames]

theorem fclTakeFrame : Statement .fclTakeFrame := by
  simp [Statement, WellFormed, bounds, frames]

theorem fclHandOff : Statement .fclHandOff := by
  simp [Statement, WellFormed, bounds, frames]

theorem swuTakeReading : Statement .swuTakeReading := by
  simp [Statement, WellFormed, bounds, frames]

theorem join : Statement .join := by
  simp [Statement, WellFormed, bounds, frames]

theorem sheet : Statement .sheet := by
  simp [Statement, WellFormed, bounds, frames]

theorem earlyTraffic : Statement .earlyTraffic := by
  simp [Statement, WellFormed, bounds, frames]

theorem valveAck : Statement .valveAck := by
  simp [Statement, WellFormed, bounds, frames]

theorem uplinkFrameReceived (frame : Bytes) : Statement (.uplinkFrameReceived frame) := by
  simp [Statement, WellFormed, bounds, frames]

theorem uplinkFrameSent : Statement .uplinkFrameSent := by
  simp [Statement, WellFormed, bounds, frames]

theorem fieldTxHandOff : Statement .fieldTxHandOff := by
  simp [Statement, WellFormed, bounds, frames]

theorem fieldTxAnswer (answer : TxAnswer) (which : AnswerFor) : Statement (.fieldTxAnswer answer which) := by
  simp [Statement, WellFormed, bounds, frames]

theorem answerWaitExpiry : Statement .answerWaitExpiry := by
  simp [Statement, WellFormed, bounds, frames]

theorem deviceTimeTick : Statement .deviceTimeTick := by
  simp [Statement, WellFormed, bounds, frames]

theorem silenceDeadline (entry : Nat) : Statement (.silenceDeadline entry) := by
  simp [Statement, WellFormed, bounds, frames]

theorem lossDeadline (entry : Nat) : Statement (.lossDeadline entry) := by
  simp [Statement, WellFormed, bounds, frames]

theorem windowClose (nrs : NrsTurn) : Statement (.windowClose nrs) := by
  simp [Statement, WellFormed, bounds, frames]

theorem sheetDeadline (ctx : Nat) : Statement (.sheetDeadline ctx) := by
  simp [Statement, WellFormed, bounds, frames]

theorem thawDeadline (zone : Nat) : Statement (.thawDeadline zone) := by
  simp [Statement, WellFormed, bounds, frames]

theorem alertTimerExpiry : Statement .alertTimerExpiry := by
  simp [Statement, WellFormed, bounds, frames]

theorem gatherDeadline (slot : Nat) : Statement (.gatherDeadline slot) := by
  simp [Statement, WellFormed, bounds, frames]

theorem completionDeadline (slot : Nat) (zone : Nat) : Statement (.completionDeadline slot zone) := by
  simp [Statement, WellFormed, bounds, frames, and_assoc]

theorem flowConfirmDeadline (slot : Nat) : Statement (.flowConfirmDeadline slot) := by
  simp [Statement, WellFormed, bounds, frames]

theorem ackDeadline (zone : Nat) : Statement (.ackDeadline zone) := by
  simp [Statement, WellFormed, bounds, frames]

theorem drainDeadline : Statement .drainDeadline := by
  simp [Statement, WellFormed, bounds, frames]

theorem pulseLeadEnd : Statement .pulseLeadEnd := by
  simp [Statement, WellFormed, bounds, frames]

theorem pulseDriveEnd : Statement .pulseDriveEnd := by
  simp [Statement, WellFormed, bounds, frames]

theorem pulseEnd : Statement .pulseEnd := by
  simp [Statement, WellFormed, bounds, frames]

theorem pulseGapEnd : Statement .pulseGapEnd := by
  simp [Statement, WellFormed, bounds, frames]

theorem timeRead (port : Port) : Statement (.timeRead port) := by
  simp [Statement, WellFormed, bounds, frames]

theorem timeSet (port : Port) : Statement (.timeSet port) := by
  simp [Statement, WellFormed, bounds, frames]

theorem start (port : Port) : Statement (.start port) := by
  simp [Statement, WellFormed, bounds, frames]

theorem reset (port : Port) : Statement (.reset port) := by
  simp [Statement, WellFormed, bounds, frames]

theorem stageWrite (port : Port) : Statement (.stageWrite port) := by
  simp [Statement, WellFormed, bounds, frames]

theorem stageRead (port : Port) : Statement (.stageRead port) := by
  simp [Statement, WellFormed, bounds, frames]

theorem stageCommit (port : Port) : Statement (.stageCommit port) := by
  simp [Statement, WellFormed, bounds, frames]

theorem stageDiscard (port : Port) : Statement (.stageDiscard port) := by
  simp [Statement, WellFormed, bounds, frames]

theorem tableRead (port : Port) : Statement (.tableRead port) := by
  simp [Statement, WellFormed, bounds, frames]

theorem nodeRead (port : Port) : Statement (.nodeRead port) := by
  simp [Statement, WellFormed, bounds, frames]

theorem nodeProbe (port : Port) : Statement (.nodeProbe port) := by
  simp [Statement, WellFormed, bounds, frames]

theorem reserve (port : Port) : Statement (.reserve port) := by
  simp [Statement, WellFormed, bounds, frames]

theorem assign (port : Port) : Statement (.assign port) := by
  simp [Statement, WellFormed, bounds, frames]

theorem release (port : Port) : Statement (.release port) := by
  simp [Statement, WellFormed, bounds, frames]

theorem restore (port : Port) : Statement (.restore port) := by
  simp [Statement, WellFormed, bounds, frames]

theorem zoneRead (port : Port) : Statement (.zoneRead port) := by
  simp [Statement, WellFormed, bounds, frames]

theorem zoneControlIfSet (port : Port) : Statement (.zoneControlIfSet port) := by
  simp [Statement, WellFormed, bounds, frames]

theorem clearValve (port : Port) : Statement (.clearValve port) := by
  simp [Statement, WellFormed, bounds, frames]

theorem runOpen (port : Port) : Statement (.runOpen port) := by
  simp [Statement, WellFormed, bounds, frames]

theorem runCancel (port : Port) : Statement (.runCancel port) := by
  simp [Statement, WellFormed, bounds, frames]

theorem runRead (port : Port) : Statement (.runRead port) := by
  simp [Statement, WellFormed, bounds, frames]

theorem windowRead (port : Port) : Statement (.windowRead port) := by
  simp [Statement, WellFormed, bounds, frames]

theorem passSend (port : Port) : Statement (.passSend port) := by
  simp [Statement, WellFormed, bounds, frames]

theorem watchSet (port : Port) : Statement (.watchSet port) := by
  simp [Statement, WellFormed, bounds, frames]

theorem watchClear (port : Port) : Statement (.watchClear port) := by
  simp [Statement, WellFormed, bounds, frames]

theorem noticeMask (port : Port) : Statement (.noticeMask port) := by
  simp [Statement, WellFormed, bounds, frames]

theorem statusRead (port : Port) : Statement (.statusRead port) := by
  simp [Statement, WellFormed, bounds, frames]

theorem malformedRequest (port : Port) : Statement (.malformedRequest port) := by
  simp [Statement, WellFormed, bounds, frames]

theorem powerOn : Statement .powerOn := by
  simp [Statement, WellFormed, bounds, frames]

end Sys2Proof.Laws.IndicesInRange
end

