-- ==== Sys2Proof/Laws/Requests.lean ====
section
/-! SUPPORT. What a request row comes to: nothing for a request that is not its own, else the request's
own work, MALFORMED, PRIVILEGE or a stray (R172, R173). -/

namespace Sys2Proof.Machine.State

set_option Elab.async false

variable {α : Type} (s : State) (port : Port) (row : RequestRow) (v : Service α) (t : Taken)

theorem serve_none (h : s.nextRequest port = none) : s.serve port row v = s := by
  simp [serve, h]

theorem serve_other (h : s.nextRequest port = some t) (hr : requestRow t.code t.args ≠ row) :
    s.serve port row v = s := by
  simp [serve, h, hr]

theorem serve_judged (a : α) (h : s.nextRequest port = some t)
    (hr : requestRow t.code t.args = row) (hq : (request? t.code t.args).bind v.pick = some a)
    (hs : standing port t (v.fieldMay a) = .judged) :
    s.serve port row v = (v.body a (s.dropRequest port)).1.answer port t
      (v.body a (s.dropRequest port)).2 := by
  simp only [serve, h, hr, if_true, carryOut, hq, hs]

theorem serve_privilege (a : α) (h : s.nextRequest port = some t)
    (hr : requestRow t.code t.args = row) (hq : (request? t.code t.args).bind v.pick = some a)
    (hs : standing port t (v.fieldMay a) = .privilege) :
    s.serve port row v = ((s.dropRequest port).authorityNotice t).answer port t
      (.refused .privilege) := by
  simp only [serve, h, hr, if_true, carryOut, hq, hs]

theorem serve_malformed (h : s.nextRequest port = some t) (hr : requestRow t.code t.args = row)
    (hq : (request? t.code t.args).bind v.pick = none) (hs : standing port t true ≠ .stray) :
    s.serve port row v = (s.dropRequest port).answer port t (.refused .malformed) := by
  simp only [serve, h, hr, if_true, carryOut, hq]
  cases hx : standing port t true
  · exact absurd hx hs
  · rfl
  · rfl

theorem serve_stray (h : s.nextRequest port = some t) (hr : requestRow t.code t.args = row)
    (hs : ∀ b, standing port t b = .stray) :
    s.serve port row v = (s.dropRequest port).onWorks Works.latchStray := by
  simp only [serve, h, hr, if_true, carryOut, hs]
  split <;> rfl

theorem standing_uplink (b : Bool) : standing .uplink t b = .judged := rfl

theorem standing_service (h : t.role = some .service) : standing .field t true = .judged := by
  simp [standing, h]

theorem standing_forbidden (h : t.role = some .service) : standing .field t false = .privilege := by
  simp [standing, h]

theorem standing_other (b : Bool) (h : t.role ≠ some .service) : standing .field t b = .stray := by
  simp [standing, h]

/-! ### What a reply leaves -/

@[simp] theorem answer_pending (a : Answer) : (s.answer port t a).pending = s.pending := by
  cases port <;> rfl

@[simp] theorem answer_requests (a : Answer) : (s.answer port t a).requests = s.requests := by
  cases port <;> rfl

@[simp] theorem answer_windows (a : Answer) : (s.answer port t a).windows = s.windows := by
  cases port <;> rfl

@[simp] theorem answer_watch (a : Answer) : (s.answer port t a).watch = s.watch := by
  cases port <;> rfl

@[simp] theorem answer_bank (a : Answer) : (s.answer port t a).bank = s.bank := by
  cases port <;> rfl

@[simp] theorem answer_uplink_works (a : Answer) :
    (s.answer .uplink t a).works = s.works.reply t.echo ([t.code, a.result.code] ++ a.data) := rfl

@[simp] theorem answer_field_works (a : Answer) :
    (s.answer .field t a).works =
      s.works.submitReply t.src ([t.echo, t.code, a.result.code] ++ a.fieldData) := rfl

end Sys2Proof.Machine.State
end

