-- ==== Sys2Proof/Laws/Upholds.lean ====
section
/-! SUPPORT. What the operations on the whole state keep of the shared records: those that leave the base
records alone by `Keeps`, the others by `Upholds`, which says only that the laws between steps go on
holding. -/

namespace Sys2Proof.Machine

set_option Elab.async false

/-- The laws of the shared records hold after, if they held before. -/
structure Works.Upholds (w v : Works) : Prop where
  lawful : w.Lawful → v.Lawful
  numbers : w.RunsNumbered → v.RunsNumbered
  idle : w.Idle → v.Idle
  urgent : w.urgent.length ≤ Config.urgentCapacity → v.urgent.length ≤ Config.urgentCapacity
  command : w.command.length ≤ Config.commandCapacity → v.command.length ≤ Config.commandCapacity
  pass : w.pass.length ≤ Config.passCapacity → v.pass.length ≤ Config.passCapacity

namespace Works

variable {n f : Bool} {u v w : Works}

theorem Upholds.refl (w : Works) : Upholds w w := ⟨id, id, id, id, id, id⟩

theorem Upholds.trans (a : Upholds u v) (b : Upholds v w) : Upholds u w :=
  ⟨b.lawful ∘ a.lawful, b.numbers ∘ a.numbers, b.idle ∘ a.idle, b.urgent ∘ a.urgent,
    b.command ∘ a.command, b.pass ∘ a.pass⟩

theorem Keeps.upholds (a : Keeps true n f u v) : Upholds u v :=
  ⟨a.lawful, a.numbers, a.idle rfl, a.urgent, a.command, fun h => a.pass ▸ h⟩

/-- Records that the laws do not speak of. -/
theorem Upholds.of_same (ht : v.tables = u.tables) (hz : v.zones = u.zones) (hr : v.runs = u.runs)
    (hn : v.runNumber = u.runNumber) (ho : v.offer = u.offer) (hc : v.closes = u.closes)
    (h1 : v.urgent.length ≤ u.urgent.length) (h2 : v.command.length ≤ u.command.length)
    (h3 : v.pass.length ≤ u.pass.length) : Upholds u v := by
  have hzone : v.zone = u.zone := by
    funext z
    simp [Works.zone, hz]
  have hrun : v.run = u.run := by
    funext i
    simp [Works.run, hr]
  refine ⟨fun h => ⟨hzone ▸ h.commands, ?_⟩, ?_, ?_, h1.trans, h2.trans, h3.trans⟩
  · have := admitted_le_of u v ht fun x => by rw [hzone]; exact id
    simp only [Works.site, ht]
    exact this.trans h.capacity
  · intro h
    unfold RunsNumbered
    rw [hn, hrun]
    exact h
  · intro h
    unfold Idle
    rw [ho, hc]
    exact h

theorem reply_upholds (w : Works) (k : Byte) (p : Bytes) : Upholds w (w.reply k p) :=
  Upholds.of_same rfl rfl rfl rfl rfl rfl le_rfl le_rfl le_rfl

/-- An activation that has passed every check. -/
theorem activate_upholds (w : Works) (b : Tables) (h : w.validate b = none) :
    Upholds w (w.activate b) := by
  have k := activate_keeps (q := true) (n := true) w b
  exact ⟨activate_lawful w b h, fun hn => k.numbers hn, fun hi => k.idle rfl hi, fun hu => k.urgent hu,
    fun hc => k.command hc, fun hp => k.pass ▸ hp⟩

theorem commit_upholds (w : Works) (b : Tables) : Upholds w (w.commit b).1 := by
  unfold commit
  split
  · exact Upholds.refl w
  · rename_i h
    exact activate_upholds w b h

end Works

namespace State

open Works

variable {q n f : Bool} (s : State)

/-! ### The frame path -/

theorem arrive_keeps (frame : Bytes) : Keeps q n f s.works (s.arrive frame).works := by
  unfold arrive
  split
  · exact Keeps.refl _
  · exact latchFieldOverrun_keeps _

theorem pushTo_works (b : Block) (h : HandOff) : (s.pushTo b h).works = s.works := by
  cases b <;> rfl

theorem handOff_works (b : Block) (h : HandOff) : (s.handOff b h).works = s.works := by
  unfold handOff
  split
  · exact pushTo_works s b h
  · rfl

theorem handHeld_works : s.handHeld.works = s.works := by
  unfold handHeld
  split
  · split
    · exact pushTo_works s _ _
    · rfl
  · rfl

theorem watchFrame_keeps (x : FieldFrame) (frame : Bytes) :
    Keeps q n f s.works (s.watchFrame x frame).works := by
  show Keeps q n f s.works (s.watchNotice x frame).works
  unfold watchNotice
  split
  · exact Keeps.refl _
  · exact notice_keeps _ _ _ _

theorem stray_keeps (x : FieldFrame) (frame : Bytes) :
    Keeps q n f s.works (s.stray x frame).works :=
  Keeps.ite ((latchStray_keeps _).trans (passUp_keeps _ _ _ _)) (latchStray_keeps _)

theorem toSwu_keeps (x : FieldFrame) (frame : Bytes) (h : Hit) (r : Option Role) :
    Keeps q n f s.works (s.toSwu x frame h r).works := by
  unfold toSwu
  rw [handOff_works]
  exact Keeps.ite (passUp_keeps _ _ _ _) (Keeps.refl _)

theorem passGate_keeps (x : FieldFrame) (frame : Bytes) (e : EntryIx) (h : Hit) :
    Keeps q false false s.works (s.passGate x frame e h).works := by
  have g : Keeps q false false s.works (s.works.gate e x.seq).1 := gate_keeps _ e _
  unfold passGate
  dsimp only
  split
  · split
    · exact g.trans (toSwu_keeps { s with works := (s.works.gate e x.seq).1 } x frame h _)
    · split
      · rw [handOff_works]
        exact g
      · rw [handOff_works]
        exact g
  · exact g

theorem dispatchGated_keeps (x : FieldFrame) (frame : Bytes) (h : Hit) :
    Keeps q false false s.works (s.dispatchGated x frame h).works := by
  unfold dispatchGated
  split
  · split
    · exact toSwu_keeps s x frame _ _
    · exact stray_keeps s x frame
  · exact stray_keeps s x frame
  · split
    · exact passGate_keeps s x frame _ _
    · split
      · rw [handOff_works]
        exact Keeps.refl _
      · exact stray_keeps s x frame

theorem dispatch_keeps (x : FieldFrame) (frame : Bytes) (h : Hit) :
    Keeps q false false s.works (s.dispatch x frame h).works := by
  unfold dispatch
  split
  · rw [handOff_works]
    exact Keeps.refl _
  · split
    · exact dispatchGated_keeps s x frame h
    · exact stray_keeps s x frame

theorem classify_keeps (x : FieldFrame) (frame : Bytes) :
    Keeps q false false s.works (s.classify x frame).works := by
  unfold classify
  split
  · exact passUp_keeps _ _ _ _
  · split
    · exact dispatch_keeps s x frame _
    · exact latchStray_keeps _

theorem countFieldError_upholds (w : Works) : Upholds w w.countFieldError :=
  Upholds.of_same rfl rfl rfl rfl rfl rfl le_rfl le_rfl le_rfl

theorem classifyGood_keeps (x : FieldFrame) (frame : Bytes) :
    Keeps q false false s.works (s.classifyGood x frame).works := by
  have h : Keeps q false false s.works (s.watchFrame x frame).works := watchFrame_keeps s x frame
  unfold classifyGood
  dsimp only
  split
  · exact h.trans (classify_keeps _ x frame)
  · exact h.trans (passUp_keeps _ _ _ _)

/-! ### The blocks -/

theorem accumulate_works (z : Option ZoneIx) (v : Int) : (s.accumulate z v).works = s.works := by
  unfold accumulate
  split
  · split <;> rfl
  · rfl

theorem routeFlow_keeps (src : NodeId) (v : Int) : Keeps q n f s.works (s.routeFlow src v).works := by
  unfold routeFlow
  split
  · exact flowReading_keeps s.works v
  · exact Keeps.refl _

theorem routeValve_keeps (src : NodeId) (v : Int) :
    Keeps q n false s.works (s.routeValve src v).works := by
  unfold routeValve
  split
  · exact positionReading_keeps s.works _ v
  · exact Keeps.refl _

theorem routeRoster_keeps (e : EntryIx) (src : NodeId) (c : ClassCode) (v : Int) :
    Keeps q n false s.works (s.routeRoster e src c v).works := by
  unfold routeRoster
  dsimp only
  split
  · rw [accumulate_works]
    exact Keeps.refl _
  · split
    · split
      · simp only [works_onWorks]
        exact frostEvent_keeps s.works _ _ _
      · exact Keeps.refl _
    · split
      · exact routeFlow_keeps s src v
      · split
        · exact routeValve_keeps s src v
        · exact Keeps.refl _

theorem routeWindow_keeps (z : ZoneIx) (src : NodeId) (c : ClassCode) (v : Int) :
    Keeps q n false s.works (s.routeWindow z src c v).works := by
  unfold routeWindow
  split
  · rw [accumulate_works]
    exact Keeps.refl _
  · split
    · exact routeFlow_keeps s src v
    · split
      · exact routeValve_keeps s src v
      · exact Keeps.refl _

theorem keepLatest_keeps (e : EntryIx) (c : Nat) (v : Int) :
    Keeps q false f s.works (s.keepLatest e c v).works :=
  (modEntry_keeps _ e _).trans (goodReading_keeps _ e)

theorem judgeRoster_keeps (e : EntryIx) (src : NodeId) (rs : List Reading) :
    Keeps q false false s.works (judgeRoster e src rs s).works := by
  induction rs generalizing s with
  | nil => exact Keeps.refl _
  | cons r rs ih =>
    have hb : Keeps q false false s.works
        (s.onWorks fun w => w.latchBounds.badReading e r.channel r.cls).works :=
      (latchBounds_keeps _).trans (badReading_keeps _ e _ _)
    unfold judgeRoster
    split
    · exact ((keepLatest_keeps s e _ _).trans (routeRoster_keeps _ e src _ _)).trans (ih _)
    · dsimp only
      split
      · exact hb
      · exact hb.trans (ih _)

theorem judgeWindow_keeps (z : ZoneIx) (c : ClassCode) (src : NodeId) (r : Reading) :
    Keeps q n false s.works (judgeWindow z c src s r).works := by
  unfold judgeWindow
  split
  · exact routeWindow_keeps s z src c _
  · exact latchBounds_keeps _

theorem judgeWindows_keeps (z : ZoneIx) (c : ClassCode) (src : NodeId) (rs : List Reading) :
    Keeps q n false s.works (rs.foldl (judgeWindow z c src) s).works := by
  induction rs generalizing s with
  | nil => exact Keeps.refl _
  | cons r rs ih => exact (judgeWindow_keeps s z c src r).trans (ih _)

theorem takeReading_keeps (x : FieldFrame) (h : Hit) :
    Keeps q false false s.works (s.takeReading x h).works := by
  unfold takeReading
  split
  · split
    · split
      · exact judgeRoster_keeps s _ _ _
      · exact latchStray_keeps _
    · exact Keeps.refl _
  · split
    · split
      · exact (judgeWindows_keeps s _ _ _ _).dropNodes
      · exact latchStray_keeps _
    · exact Keeps.refl _
  · exact Keeps.refl _

theorem takeSwu_keeps : Keeps q false false s.works s.takeSwu.works := by
  unfold takeSwu
  split
  · split
    · rename_i h rest _ _ x _
      exact takeReading_keeps { s with swuQueue := rest } x h.hit
    · exact Keeps.refl _
  · exact Keeps.refl _

theorem takeEnu_keeps (k : Byte) (g : Works → FieldFrame → Hit → Works)
    (hg : ∀ w x h, Keeps q n f w (g w x h)) : Keeps q n f s.works (s.takeEnu k g).works := by
  unfold takeEnu
  split
  · split
    · split
      · exact hg _ _ _
      · exact Keeps.refl _
    · exact Keeps.refl _
  · exact Keeps.refl _

theorem takeVcu_keeps : Keeps q n false s.works s.takeVcu.works := by
  unfold takeVcu
  split
  · split
    · exact takeAck_keeps _ _ _
    · exact Keeps.refl _
  · exact Keeps.refl _

theorem onRow_keeps {α : Type} (ix : Option α) (g : Works → α → Works)
    (hg : ∀ w x, Keeps q n f w (g w x)) : Keeps q n f s.works (s.onRow ix g).works := by
  unfold onRow
  split
  · exact hg _ _
  · exact Keeps.refl _

/-! ### The window close -/

theorem foldClosed_keeps (i : WinIx) : Keeps q n false s.works (s.foldClosed i).works := by
  unfold foldClosed
  split
  · exact foldWindow_keeps _ _ _
  · exact Keeps.refl _

theorem nrsTurn_keeps (a b : NrsTurn) : Keeps q false false s.works (s.nrsTurn a b).works := by
  unfold nrsTurn
  split
  · simp only [works_onWorks]
    exact rosterClose_keeps s.works
  · exact Keeps.refl _

theorem reportsAtClose_keeps (i : WinIx) (t : NrsTurn) :
    Keeps q false false s.works (s.reportsAtClose i t).works := by
  unfold reportsAtClose
  simp only [works_onWorks]
  split
  · exact ((sendGroups_keeps _ _ _ _ _).trans (rosterClose_keeps _)).trans (sendGroups_keeps _ _ _ _ _)
  all_goals exact sendReports_keeps s.works i _ _

theorem triggerAtClose_keeps (t : NrsTurn) :
    Keeps q false false s.works (s.triggerAtClose t).works := by
  unfold triggerAtClose
  simp only [works_onWorks]
  split
  · exact ((triggerZones_keeps _ _).trans (rosterClose_keeps _)).trans (triggerZones_keeps _ _)
  all_goals exact runTrigger_keeps _

theorem commitAtClose_upholds : Upholds s.works s.commitAtClose.works := by
  unfold commitAtClose
  split
  · exact (commit_upholds _ _).trans (commitNotice_keeps (n := true) (f := true) _ _ _).upholds
  · exact Upholds.refl _

/-! ### Requests -/

theorem authorityNotice_keeps (t : Taken) : Keeps q n f s.works (s.authorityNotice t).works := by
  unfold authorityNotice
  split
  · exact notice_keeps _ _ _ _
  all_goals exact Keeps.refl _

theorem answer_upholds (p : Port) (t : Taken) (a : Answer) : Upholds s.works (s.answer p t a).works := by
  cases p
  · exact reply_upholds _ _ _
  · exact (submitReply_keeps (n := true) (f := true) _ _ _).upholds

/-- A request row upholds the laws when its work does. -/
theorem serve_upholds {α : Type} (p : Port) (row : RequestRow) (v : Service α)
    (h : ∀ a s, Upholds s.works (v.body a s).1.works) : Upholds s.works (s.serve p row v).works := by
  have hd : (s.dropRequest p).works = s.works := works_dropRequest s p
  have hs : Upholds s.works ((s.dropRequest p).onWorks latchStray).works := by
    rw [works_onWorks, hd]
    exact (latchStray_keeps (n := true) (f := true) _).upholds
  unfold serve
  split
  · exact Upholds.refl _
  · split
    · unfold carryOut
      rw [← hd]
      rw [← hd] at hs
      split
      · split
        · exact hs
        · exact answer_upholds _ _ _ _
        · exact answer_upholds _ _ _ _
      · split
        · exact hs
        · exact (authorityNotice_keeps (n := true) (f := true) _ _).upholds.trans
            (answer_upholds _ _ _ _)
        · exact (h _ _).trans (answer_upholds _ _ _ _)
    · exact Upholds.refl _

end State

end Sys2Proof.Machine
end

