-- ==== Sys2Proof/Laws/StepUpholds.lean ====
section
/-! SUPPORT. The laws of the shared records through the work of every request, through a window close
and through a reset. -/

namespace Sys2Proof.Machine

set_option Elab.async false

open Works

namespace State

variable (s : State)

/-! ### Requests -/

theorem timeReadBody_upholds (a : Unit) : Upholds s.works (timeReadBody a s).1.works := Upholds.refl _

theorem timeSetBody_upholds (t : Nat) : Upholds s.works (timeSetBody t s).1.works := by
  unfold timeSetBody
  split
  · exact Upholds.refl _
  · exact Upholds.of_same rfl rfl rfl rfl rfl rfl le_rfl le_rfl le_rfl

theorem startWorks_upholds (w : Works) : Upholds w (startWorks w) := by
  let v := { w with device := .running, alert := false, alertTimer := none }
  have h : Upholds w v := Upholds.of_same rfl rfl rfl rfl rfl rfl le_rfl le_rfl le_rfl
  exact (h.trans (rosterStart_keeps (q := true) (f := true) v).upholds).trans
    (startBroadcast_keeps (q := true) (n := true) (f := true) v.rosterStart).upholds

theorem startBody_upholds (a : Unit) : Upholds s.works (startBody a s).1.works := by
  unfold startBody
  split
  · exact Upholds.refl _
  · exact startWorks_upholds s.works

theorem resetBody_upholds (a : Unit) : Upholds s.works (resetBody a s).1.works := Upholds.refl _

theorem statusReadBody_upholds (a : Unit) : Upholds s.works (statusReadBody a s).1.works :=
  Upholds.of_same rfl rfl rfl rfl rfl rfl le_rfl le_rfl le_rfl

theorem noticeMaskBody_upholds (ks : Bytes) : Upholds s.works (noticeMaskBody ks s).1.works := by
  unfold noticeMaskBody
  split
  · exact Upholds.of_same rfl rfl rfl rfl rfl rfl le_rfl le_rfl le_rfl
  · exact Upholds.refl _

theorem works_watchSetBody (a : Nat × WatchPoint) : (watchSetBody a s).1.works = s.works := by
  unfold watchSetBody
  split <;> rfl

theorem passSendBody_upholds (frame : Bytes) : Upholds s.works (passSendBody frame s).1.works := by
  unfold passSendBody
  split
  · split
    · exact Upholds.refl _
    · split
      · exact Upholds.refl _
      · split
        · exact Upholds.refl _
        · rename_i hp
          exact ⟨fun h => ⟨h.commands, h.capacity⟩, id, id, id, id, fun _ => by
            simp only [Works.submitPass, State.onWorks, List.length_append, List.length_singleton]
            omega⟩
  · exact Upholds.refl _

theorem works_stageWriteBody (a : Option (TableName × Nat × Bytes)) :
    (stageWriteBody a s).1.works = s.works := by
  unfold stageWriteBody
  split
  · rfl
  · split
    · rfl
    · split
      · rfl
      · split
        · rfl
        · split <;> rfl

theorem works_stageReadBody (a : Option TableName × Nat) : (stageReadBody a s).1.works = s.works := by
  unfold stageReadBody
  split <;> rfl

theorem commitNow_upholds : Upholds s.works s.commitNow.1.works := by
  unfold commitNow
  dsimp only
  split
  · exact commit_upholds _ _
  · exact Upholds.refl _

theorem stageCommitBody_upholds (a : Unit) : Upholds s.works (stageCommitBody a s).1.works := by
  unfold stageCommitBody
  split
  · exact Upholds.refl _
  · split
    · exact Upholds.refl _
    · exact commitNow_upholds s

theorem works_tableReadBody (a : Byte × Nat) : (tableReadBody a s).1.works = s.works := by
  unfold tableReadBody
  split <;> rfl

theorem works_windowReadBody (a : Nat × Nat) : (windowReadBody a s).1.works = s.works := by
  unfold windowReadBody
  split
  · split <;> rfl
  · rfl

theorem works_nodeReadBody (e : Nat) : (nodeReadBody e s).1.works = s.works := by
  unfold nodeReadBody
  split <;> rfl

/-- A conditional write keeps what its operation keeps. -/
theorem nodeWrite_upholds (e : Nat) (g : Word16) (op : EntryIx → State → Except ResultCode Works)
    (h : ∀ x w, op x s = .ok w → Upholds s.works w) : Upholds s.works (s.nodeWrite e g op).1.works := by
  unfold nodeWrite
  split
  · exact Upholds.refl _
  · split
    · split
      · exact Upholds.refl _
      · exact h _ _ (by assumption)
    · exact Upholds.refl _

theorem reserveBody_upholds (a : Option ReserveArgs) : Upholds s.works (reserveBody a s).1.works := by
  unfold reserveBody
  split
  · refine nodeWrite_upholds s _ _ _ fun x w hw => ?_
    unfold reserveOp at hw
    split at hw
    · repeat' split at hw
      all_goals cases hw
      exact (reserveEntry_keeps (q := true) (f := true) _ _ _ _ _).upholds
    · cases hw
  · exact Upholds.refl _

theorem assignBody_upholds (a : Nat × Word16 × Byte) : Upholds s.works (assignBody a s).1.works := by
  refine nodeWrite_upholds s _ _ _ fun x w hw => ?_
  unfold assignOp at hw
  repeat' split at hw
  all_goals cases hw
  exact (assignEntry_keeps (q := true) _ _ _).upholds

theorem releaseBody_upholds (a : Nat × Word16) : Upholds s.works (releaseBody a s).1.works := by
  refine nodeWrite_upholds s _ _ _ fun x w hw => ?_
  unfold releaseOp at hw
  split at hw
  all_goals cases hw
  exact (releaseEntry_keeps (q := true) _ _).upholds

theorem restoreBody_upholds (a : Nat × Word16) : Upholds s.works (restoreBody a s).1.works := by
  refine nodeWrite_upholds s _ _ _ fun x w hw => ?_
  unfold restoreOp at hw
  split at hw
  all_goals cases hw
  exact (restoreEntry_keeps (q := true) _ _).upholds

theorem works_zoneReadBody (z : Nat) : (zoneReadBody z s).1.works = s.works := by
  unfold zoneReadBody
  split <;> rfl

theorem zoneControlBody_upholds (a : Option ControlArgs) :
    Upholds s.works (zoneControlBody a s).1.works := by
  unfold zoneControlBody
  split
  · exact Upholds.refl _
  · split
    · split
      · exact (setControls_keeps (q := true) (n := true) _ _ _ _).upholds
      · exact Upholds.refl _
    · exact Upholds.refl _

theorem clearValveBody_upholds (a : Nat × Word16) : Upholds s.works (clearValveBody a s).1.works := by
  unfold clearValveBody
  split
  · exact Upholds.refl _
  · split
    · exact Upholds.refl _
    · split
      · exact Upholds.refl _
      · rename_i z _ _ h
        have k := clearValve_keeps (q := true) (n := true) s.works z (not_not.mp h)
        dsimp only
        exact k.upholds

theorem openChecked_upholds (is : List (ZoneIx × Nat)) : Upholds s.works (s.openChecked is).1.works := by
  unfold openChecked
  split
  · exact Upholds.refl _
  · split
    · exact Upholds.refl _
    · exact (openRun_keeps (q := true) (n := true) (f := true) _ _ _).upholds

theorem runOpenBody_upholds (is : List (Nat × Nat)) : Upholds s.works (runOpenBody is s).1.works := by
  unfold runOpenBody
  split
  · exact Upholds.refl _
  · split
    · exact Upholds.refl _
    · split
      · exact Upholds.refl _
      · exact openChecked_upholds s _

theorem runCancelBody_upholds (a : Nat × Word16) : Upholds s.works (runCancelBody a s).1.works := by
  unfold runCancelBody
  split
  · exact Upholds.refl _
  · split
    · exact Upholds.refl _
    · split
      · exact Upholds.refl _
      · split
        · exact (cancelFrost_keeps (q := true) (n := true) _).upholds
        · exact (cancelIrrigation_keeps (q := true) (n := true) (f := true) _ _ _).upholds

theorem works_runReadBody (a : Nat × Nat) : (runReadBody a s).1.works = s.works := by
  unfold runReadBody
  split
  · rfl
  · split
    · rfl
    · split <;> rfl

/-! ### The window close -/

theorem nrsTurn_upholds (a b : NrsTurn) : Upholds s.works (s.nrsTurn a b).works :=
  (nrsTurn_keeps (q := true) s a b).upholds

theorem closeWindow_upholds (i : WinIx) (t : NrsTurn) : Upholds s.works (s.closeWindow i t).works := by
  obtain ⟨s1, e1⟩ : ∃ x : State, x =
    { s with windows := s.windows.set i.val (s.windows[i].close s.works.time) i.isLt } := ⟨_, rfl⟩
  have w1 : s1.works = s.works := by rw [e1]
  let s2 := (s1.foldClosed i).nrsTurn t .beforeCommit
  let s3 := (s2.commitAtClose.openOther (otherWindow i)).nrsTurn t .beforeReports
  have h1 : Upholds s.works (s1.foldClosed i).works := by
    have h := (foldClosed_keeps (q := true) (n := true) s1 i).upholds
    rw [w1] at h
    exact h
  have h2 : Upholds s.works s2.works := h1.trans (nrsTurn_upholds _ _ _)
  have h3 : Upholds s.works s3.works :=
    (h2.trans (commitAtClose_upholds s2)).trans
      (nrsTurn_upholds (s2.commitAtClose.openOther (otherWindow i)) _ _)
  have h4 : Upholds s.works (s3.reportsAtClose i t).works :=
    h3.trans (reportsAtClose_keeps (q := true) s3 i t).upholds
  have h5 : Upholds s.works ((s3.reportsAtClose i t).triggerAtClose t).works :=
    h4.trans (triggerAtClose_keeps (q := true) (s3.reportsAtClose i t) t).upholds
  unfold closeWindow
  rw [← e1]
  exact h5.trans (nrsTurn_upholds _ _ _)

theorem windowCloses_upholds (t : NrsTurn) : Upholds s.works (s.windowCloses t).works := by
  unfold windowCloses
  split
  · exact closeWindow_upholds s _ t
  · exact Upholds.refl _

end State

/-! ### Resets -/

/-- Zones and runs as a reset leaves them satisfy every law. -/
theorem Works.upholds_cleared {w v : Works} (hz : ∀ z, ∃ g, v.zone z = Zone.cleared g)
    (hr : ∀ i, v.run i = none) (hn : v.runNumber = 1) (hi : v.Idle) (hu : v.urgent = [])
    (hc : v.command = []) (hp : v.pass = []) : Upholds w v := by
  refine ⟨fun _ => ⟨fun z => ?_, ?_⟩, fun _ => ⟨by rw [hn]; decide, fun i r h => ?_⟩, fun _ => hi,
    fun _ => ?_, fun _ => ?_, fun _ => ?_⟩
  · obtain ⟨g, h⟩ := hz z
    simp [h, Zone.commandFits, Zone.cleared]
  · have h0 : v.zonesWithValve ValveState.admitted = [] := by
      unfold Works.zonesWithValve
      refine List.filter_eq_nil_iff.mpr fun z _ => ?_
      obtain ⟨g, h⟩ := hz z
      simp [h, Zone.cleared, ValveState.admitted]
    simp [Works.admittedDemand, h0, Works.demandSum]
  · exact absurd ((hr i).symm.trans h) nofun
  · simp [hu]
  · simp [hc]
  · simp [hp]

end Sys2Proof.Machine
end

