-- ==== Sys2Proof/Tests/Slice0.lean ====
section
/-! SUPPORT. The model's own tests: ill-formed commands, worked values of the manual, and for every
statement with hypotheses a state that meets them, each with one step taken from it. -/

namespace Sys2Proof.Tests

set_option Elab.async false

open Machine

/-! ### Builders -/

/-- The state a command answers with. -/
def did (c : Instr) (s : State) : State :=
  match exec c s with
  | .next t => t
  | .fault _ => s
  | .refused _ => s

def node : NodeId := 0x000101#24

/-- RUNNING at time 1000 with window A open until 1900. -/
def running : State :=
  { State.reset with
    works := { State.reset.works with device := .running, time := 1000 },
    windows := State.reset.windows.set 0 (Window.cleared.openAt 1000 900),
    folds := State.reset.folds.set 0 (some State.reset.works.foldRecord) }

def State.withWorks (s : State) (f : Works → Works) : State := { s with works := f s.works }

/-- A frame from the test node to the controller. -/
def fromNode (kind : Byte) (payload : Bytes) : Bytes :=
  sealFrame (fieldBody kind 0x0000FE#24 node 7 payload)

def handed (kind : Byte) (payload : Bytes) (hit : Hit) : HandOff :=
  { frame := fromNode kind payload, hit := hit, role := none }

/-- An ACTIVE entry for the test node, of a role, with channels. -/
def member (role : Role) (channels : List Channel) : Entry :=
  { Entry.free 5 with
    id := node, role := role, state := .active, channels := channels, interval := 60,
    lastHeard := 900 }

def withEntry (n : Entry) (s : State) : State :=
  State.withWorks s fun w => { w with roster := w.roster.set 3 n }

/-- Zone 2 in use with the test node as its valve node. -/
def tables2 : Tables :=
  { Tables.default with
    zones := Tables.default.zones.set 2
      { ZoneCfg.default with inUse := true, valveNode := some node } }

/-- Zone 2 configured, with the record given and node 3 a ready valve node. -/
def withZone (x : Zone) (s : State) : State :=
  withEntry (member .valve []) (State.withWorks s fun w =>
    { w with tables := tables2, zones := w.zones.set 2 x })

def zone0 : Zone := Zone.cleared 8

/-- A request of the host waits, with its slot reserved. -/
def asked (code : Byte) (args : Bytes) (s : State) : State :=
  { s with requests := [uplinkFrame 0x01 0x55 (code :: args)],
           works := { s.works with reserved := 1 } }

def taken (code : Byte) (args : Bytes) : Taken :=
  { code := code, args := args, echo := 0x55, src := 0, hit := .none, role := none }

/-- A request of the handheld in entry 3 waits. -/
def radioed (code : Byte) (args : Bytes) (s : State) : State :=
  { s with mguQueue := [{ frame := fromNode 0x0A (code :: args), hit := .roster 3 .active,
                          role := some .service }] }

def takenRadio (code : Byte) (args : Bytes) : Taken :=
  { code := code, args := args, echo := 7, src := node, hit := .roster 3 .active,
    role := some .service }

/-- The payload of the newest frame to the host, without its check. -/
def said (s : State) : Option Bytes :=
  (s.works.upQueue.getLast?.bind uplinkFrame?).map UplinkFrame.payload

/-- The kind and payload of the newest frame in COMMAND. -/
def sentCommand (s : State) : Option (Byte × Bytes) :=
  (s.works.command.getLast?.bind fieldFrame?).map fun f => (f.kind, f.payload)

def sentUrgent (s : State) : Option (Byte × Bytes) :=
  (s.works.urgent.getLast?.bind fieldFrame?).map fun f => (f.kind, f.payload)

def run1 (state : RunState) (entries : List RunEntry) : Run :=
  { number := 9, serial := 4, kind := .irrigation, origin := .auto, state := state, created := 50,
    gatherDeadline := none, flowDeadline := none, closeCause := none, entries := entries }

def withRun (i : SlotIx) (r : Run) (s : State) : State :=
  State.withWorks s fun w => { w with runs := w.runs.set i.val (some r) i.isLt }

/-! ### Well-formedness -/

theorem test_illFormed_arrival : WellFormed (.fieldArrival []) = false := by decide

theorem test_illFormed_received : WellFormed (.uplinkFrameReceived []) = false := by decide

theorem test_illFormed_silence : WellFormed (.silenceDeadline 256) = false := by decide

theorem test_illFormed_loss : WellFormed (.lossDeadline 256) = false := by decide

theorem test_illFormed_sheetDeadline : WellFormed (.sheetDeadline 4) = false := by decide

theorem test_illFormed_thaw : WellFormed (.thawDeadline 40) = false := by decide

theorem test_illFormed_gather :
    WellFormed (.gatherDeadline 0) = false ∧ WellFormed (.gatherDeadline 12) = false := by decide

theorem test_illFormed_completion :
    WellFormed (.completionDeadline 0 1) = false ∧ WellFormed (.completionDeadline 12 1) = false
      ∧ WellFormed (.completionDeadline 1 40) = false := by decide

theorem test_illFormed_flow : WellFormed (.flowConfirmDeadline 12) = false := by decide

theorem test_illFormed_ack : WellFormed (.ackDeadline 40) = false := by decide

theorem test_wellFormed_boundaries :
    WellFormed (.fieldArrival [0]) = true ∧ WellFormed (.uplinkFrameReceived [0]) = true
      ∧ WellFormed (.silenceDeadline 255) = true ∧ WellFormed (.sheetDeadline 3) = true
      ∧ WellFormed (.completionDeadline 11 39) = true ∧ WellFormed .powerOn = true := by decide

/-- The table gives no row any bits. -/
theorem test_noWordSpellsACommand : decodeTableWord 16 0x1234 = none ∧ decodeTableWord 0 0 = none := by
  decide

/-! ### Worked values -/

/-- The check of the nine ASCII digits 1 to 9 (11, "The check"). -/
theorem test_crc_digits :
    crc16 [0x31, 0x32, 0x33, 0x34, 0x35, 0x36, 0x37, 0x38, 0x39] = 0x29B1#16 := by decide +kernel

/-- The four rows of the table under R67. -/
theorem test_calibrate :
    calibrate 290 980 15 = 292 ∧ calibrate (-517) 1000 12 = -492 ∧ calibrate (-9) 1024 (-8) = -17
      ∧ calibrate 32000 2047 0 = 32767 := by decide

/-- The four rows of the table under R90, and truncation toward zero below it. -/
theorem test_fold :
    foldEstimate none (Int.tdiv 1772 6) 4 = 295 ∧ foldEstimate (some 270) (Int.tdiv 1772 6) 4 = 276
      ∧ foldEstimate (some 276) (Int.tdiv 51765 255) 4 = 257 ∧ foldEstimate (some 300) 301 4 = 300
      ∧ foldEstimate (some (-3)) 4 4 = -1 := by decide

theorem test_signedFields :
    signed16 (-1) = [0xFF, 0xFF] ∧ int16 0x80 0x00 = -32768 ∧ signed32 (-2) = [0xFF, 0xFF, 0xFF, 0xFE]
      ∧ be24 0x010203 = [1, 2, 3] := by decide

theorem test_timeSums_saturate :
    after 0xFFFFFFF0 0x20 = 0xFFFFFFFF ∧ divUp 61 60 = 2 ∧ divUp 60 60 = 1 := by decide

/-! ### Steps and invariants -/

/-- StepRunsFrontCommand: a queue of two, and an empty one. -/
theorem witness_step :
    ({ State.reset with pending := [.join, .powerOn] } : State).pending = [.join, .powerOn]
      ∧ State.reset.pending = [] := ⟨rfl, rfl⟩

/-- The invariants hold of a state with a step, in HALTED and in RUNNING. -/
theorem witness_windowsMatch :
    (State.reset.WindowsMatch ∧ ∃ t, step State.reset = .next t)
      ∧ running.WindowsMatch ∧ ∃ t, step (running.withCommand (.windowClose .beforeCommit)) = .next t :=
  ⟨⟨⟨rfl, rfl⟩, _, rfl⟩,
    show running.windows[0].isOpen ≠ running.windows[1].isOpen by decide, _, rfl⟩

theorem witness_queuesWithin : State.reset.QueuesWithin ∧ ∃ t, step State.reset = .next t :=
  ⟨⟨by decide, by decide, by decide, by decide, by decide, by decide, rfl, by decide, by decide,
    by decide, by decide⟩, _, rfl⟩

/-- The bounds are reached: a full receive FIFO. -/
theorem witness_queuesFull :
    ({ State.reset with rxFifo := List.replicate 8 [0] } : State).rxFifo.length
      = Config.rxCapacity := by decide

theorem witness_noWorkInHand : running.NoWorkInHand ∧ ∃ t, step running = .next t :=
  ⟨⟨⟨rfl, rfl⟩, rfl⟩, _, rfl⟩

theorem witness_countsWithin : State.reset.CountsWithin ∧ ∃ t, step State.reset = .next t :=
  ⟨⟨by decide, by decide, by decide, by decide +kernel, by decide +kernel, by decide +kernel⟩, _, rfl⟩

theorem witness_lawful : State.reset.works.Lawful ∧ ∃ t, step State.reset = .next t := by
  refine ⟨⟨fun z => ?_, by decide +kernel⟩, _, rfl⟩
  simp [State.reset, Works.powerOn, Works.zone, Zone.cleared, Zone.commandFits]

theorem witness_runsNumbered :
    (withRun 1 (run1 .queued []) running).works.RunsNumbered
      ∧ ∃ t, step (withRun 1 (run1 .queued []) running) = .next t := by
  refine ⟨⟨by decide, ?_⟩, _, rfl⟩
  decide +kernel

/-! ### Resets -/

theorem witness_hardReset :
    State.reset.works.line.pulse.isSome = true
      ∧ ({ Line.powerOn with pulse := none } : Line).pulse = none := ⟨rfl, rfl⟩

/-- A pulse under way runs on through a hard reset, and URDY is LOW while the reset lasts. -/
theorem test_hardReset :
    running.hardReset.pins.urdy = false ∧ (did .hardReset running).pins.urdy = true ∧
    (did .hardReset running).works.line.pulse.map Pulse.passed = some true
      ∧ (did .hardReset running).works.device = .halted
      ∧ (did .powerOn running).works.line.pulse.map Pulse.passed = some false := by decide +kernel

/-- An exchange of an entry, with nothing staged. -/
def exchange (e : EntryIx) (returnTo : ReturnState) : Ctx :=
  { entry := e, returnTo := returnTo, declared := [0, 2], interval := 60, sheets := 5,
    expected := true, lastAck := some true, staged := Vector.replicate 4 none, stagedNote := none,
    early := false, deadline := some 1000 }

def leaving : State :=
  { withEntry { member .sensor [] with state := .lost } running with
    resetAnswered := true,
    works := { (withEntry { member .sensor [] with state := .lost } running).works with
      upQueue := [uplinkFrame 0x02 0x55 [0x04, 0x00]] } }

theorem witness_softReset :
    leaving.resetAnswered = true ∧ leaving.works.upQueue = [uplinkFrame 0x02 0x55 [0x04, 0x00]]
      ∧ isResetReply (uplinkFrame 0x02 0x55 [0x04, 0x00]) = true
      ∧ (leaving.works.entry 3).state.enrolled = true := by decide +kernel

/-- The same with a FREE entry 0, a RESERVED entry 1, exchanges of entries 4 and 5 that return to RESERVED
and to FREE, zone 2 with automatic irrigation on, and no pulse. -/
def leavingMore : State :=
  State.withWorks leaving fun w =>
    { w with
      line := { Line.atRest with pulse := none },
      zones := w.zones.set 2 { Zone.cleared 8 with auto := true },
      roster := ((w.roster.set 1 { Entry.free 2 with id := 9, state := .reserved }).set 4
        { Entry.free 6 with id := 7, state := .enrolling }).set 5
        { Entry.free 6 with id := 8, state := .enrolling },
      ctxs := (w.ctxs.set 0 (some (exchange 4 .reserved))).set 1 (some (exchange 5 .free)) }

theorem witness_softReset_entries :
    leavingMore.resetAnswered = true
      ∧ leavingMore.works.upQueue = [uplinkFrame 0x02 0x55 [0x04, 0x00]]
      ∧ (leavingMore.works.entry 0).state = .free ∧ (leavingMore.works.entry 1).state = .reserved
      ∧ (leavingMore.works.entry 4).state = .enrolling ∧ (leavingMore.works.entry 5).state = .enrolling
      ∧ leavingMore.works.ctxOf 4 = some 0 ∧ leavingMore.works.ctxOf 5 = some 1
      ∧ (leavingMore.works.ctx 0).map Ctx.returnTo = some .reserved
      ∧ (leavingMore.works.ctx 1).map Ctx.returnTo = some .free
      ∧ (leavingMore.works.zone 2).auto = true ∧ leavingMore.works.zone 3 = Zone.cleared 0
      ∧ leavingMore.works.line.pulse = none ∧ leaving.works.line.pulse.isSome = true := by
  decide +kernel

/-- A LOST entry is ACTIVE after a soft reset, one generation on, and time goes on; an exchange returns its
entry, and a zone that held a control is one generation on. -/
theorem test_softReset :
    ((did .softReset leaving).works.entry 3).state = .active
      ∧ ((did .softReset leaving).works.entry 3).gen = 6
      ∧ (did .uplinkFrameSent leaving).works.device = .halted
      ∧ (did .uplinkFrameSent leaving).works.time = 1000
      ∧ (did .softReset leavingMore).works.entry 4
        = { Entry.free 7 with id := 7, state := .reserved, lastHeard := 1000 }
      ∧ (did .softReset leavingMore).works.entry 5 = Entry.free 7
      ∧ (did .softReset leavingMore).works.zone 2 = Zone.cleared 9 := by decide +kernel

/-! ### The frame path -/

theorem witness_arrival :
    ({ running with rxFifo := List.replicate 7 [0] } : State).rxFifo.length < 8
      ∧ 8 ≤ ({ running with rxFifo := List.replicate 8 [0] } : State).rxFifo.length := by decide

theorem test_arrival :
    (did (.fieldArrival [1]) { running with rxFifo := List.replicate 7 [0] }).rxFifo.length = 8
      ∧ (did (.fieldArrival [1]) { running with rxFifo := List.replicate 8 [0] }).arrivalAnswer
        = some .busy := by decide +kernel

theorem witness_badFrame :
    running.held = none ∧ fieldFrameGood [0, 12, 1] = false := by decide

/-- A READING of channel 0, class AUX, value 100. -/
def auxFrame : Bytes := fromNode 0x01 [1, 0, 3, 0, 100]

def auxFields : FieldFrame :=
  { kind := 0x01, dst := 0x0000FE, src := node, seq := 7, payload := [1, 0, 3, 0, 100] }

def arrived (frame : Bytes) (s : State) : State := { s with rxFifo := [frame] }

theorem test_frameFields :
    fieldFrame? auxFrame = some auxFields ∧ fieldFrameGood auxFrame = true := by decide +kernel

theorem witness_fclReady (s : State) (h : s.held = none) :
    (arrived auxFrame s).FclReady auxFrame [] auxFields :=
  ⟨h, rfl, test_frameFields.2, test_frameFields.1⟩

def watching : State :=
  { running with
    watch := running.watch.set 1
      { armed := true, id := some node, kind := none, oneShot := true, hits := 254 } }

/-- WatchPointsCountHits, at the saturation of the count. -/
theorem test_watchHit :
    (did .fclTakeFrame (arrived auxFrame watching)).watch[1]
        = { armed := false, id := some node, kind := none, oneShot := true, hits := 255 }
      ∧ (did .fclTakeFrame (arrived auxFrame watching)).watch[0] = WatchPoint.cleared := by
  decide +kernel

def foreign : State :=
  State.withWorks (arrived auxFrame running) fun w =>
    { w with tables := { w.tables with site := { w.tables.site with controller := 0xFD } } }

theorem witness_passThrough :
    State.reset.works.device = .halted ∧ foreign.works.device = .running
      ∧ auxFields.dst ≠ foreign.works.site.controller ∧ auxFields.dst ≠ 0xFFFFFF#24
      ∧ 4 ≤ foreign.works.freeSlots
      ∧ ({ foreign.works with reserved := 29 } : Works).freeSlots < 4 := by decide

theorem witness_unwatched : foreign.Unwatched ∧ State.reset.Unwatched := by
  constructor <;> unfold State.Unwatched <;> decide

theorem test_passUp :
    said (did .fclTakeFrame foreign) = some ([1, 0, 0, 3, 0xE8, 0, 0] ++ auxFrame)
      ∧ said (did .fclTakeFrame (arrived auxFrame State.reset))
        = some ([0, 0, 0, 0, 0, 0, 0] ++ auxFrame) := by decide +kernel

def aux : Channel := { cls := 3, offset := 5, scale := 2047, latest := none }

/-- A sensor whose last frames were sequence 6, with the chatter limit of 12 one frame away. -/
def sensing : State :=
  withEntry { member .sensor [aux] with lastSeq := some 6, frames := 11 } (State.withWorks running
    fun w => { w with tables := { w.tables with
      classes := w.tables.classes.set 3 { lower := -300, upper := 300, quarantine := 0, copy := false } } })

theorem witness_activeReading :
    sensing.works.device = .running ∧ auxFields.dst = sensing.works.site.controller
      ∧ sensing.works.sourceValid auxFields.src = true
      ∧ sensing.works.lookup auxFields.src = .roster 3 .active
      ∧ (sensing.works.entry 3).state = .active ∧ (sensing.works.entry 3).lastSeq ≠ some auxFields.seq
      ∧ min ((sensing.works.entry 3).frames + 1) 255 ≤ sensing.works.chatterLimit 3
      ∧ State.wantsCopy sensing.works auxFields = false ∧ sensing.swuQueue.length < 8 := by
  decide +kernel

theorem witness_activeReading_noLimit :
    (withEntry (member .valve [aux]) sensing).works.chatterLimit 3 = 0 := by decide +kernel

/-- A READING of an entry at the boundaries of the gate's clauses: class 3 copied or not, the slots taken,
SWU's queue filled. -/
def copying (reserved queued : Nat) : State :=
  { State.withWorks sensing fun w =>
      { w with
        reserved := reserved,
        tables := { w.tables with
          classes := w.tables.classes.set 3
            { lower := -300, upper := 300, quarantine := 2, copy := true } } } with
    swuQueue := List.replicate queued { frame := [], hit := .none, role := none } }

theorem witness_activeReading_copied :
    State.wantsCopy (copying 28 7).works auxFields = true ∧ 4 ≤ (copying 28 7).works.freeSlots
      ∧ (copying 29 8).works.freeSlots < 4 ∧ (copying 28 7).swuQueue.length < 8
      ∧ 8 ≤ (copying 29 8).swuQueue.length
      ∧ (copying 28 7).works.lookup auxFields.src = .roster 3 .active
      ∧ (copying 28 7).works.device = .running ∧ (copying 29 8).held = none := by decide +kernel

theorem witness_forPart (s : State) (h : s.held = none) (hw : s.Unwatched)
    (hr : s.works.device = .running) (hd : auxFields.dst = s.works.site.controller) :
    (arrived auxFrame s).ForPart auxFrame [] auxFields :=
  ⟨witness_fclReady s h, hw, hr, .inl hd⟩

theorem test_activeReading :
    (did .fclTakeFrame (arrived auxFrame sensing)).swuQueue
        = [{ frame := auxFrame, hit := .roster 3 .active, role := some .sensor }]
      ∧ (did .fclTakeFrame (arrived auxFrame sensing)).works.entry 3
        = { sensing.works.entry 3 with lastHeard := 1000, lastSeq := some 7, frames := 12 }
      ∧ said (did .fclTakeFrame (arrived auxFrame (copying 28 7)))
        = some ([3, 0, 0, 3, 0xE8, 2, 3] ++ auxFrame)
      ∧ (did .fclTakeFrame (arrived auxFrame (copying 29 8))).works.latches.uplinkShed = true
      ∧ ((did .fclTakeFrame (arrived auxFrame (copying 29 8))).held.map Held.block) = some .swu := by
  decide +kernel

/-- The test node's entry in a state, with a last sequence and a count of frames. -/
def gated (state : NodeState) (seq : Byte) (frames : Nat) : State :=
  withEntry { member .sensor [aux] with state := state, lastSeq := some seq, frames := frames } sensing

def straying (forward : Bool) (reserved : Nat) (state : NodeState) : State :=
  State.withWorks (gated state 6 0) fun w =>
    { w with
      reserved := reserved,
      tables := { w.tables with site := { w.tables.site with forwardStrays := forward } } }

/-- GateFiltersAndStrays: each state of the gate, the limit of 12 and one above it, and each stray. -/
theorem witness_gate :
    (gated .muted 6 0).works.lookup node = .roster 3 .muted
      ∧ (gated .quarantined 6 0).works.lookup node = .roster 3 .quarantined
      ∧ (gated .active 7 0).works.lookup node = .roster 3 .active
      ∧ ((gated .active 7 0).works.entry 3).lastSeq = some auxFields.seq
      ∧ (gated .active 6 12).works.chatterLimit 3 = 12
      ∧ ((gated .active 6 12).works.entry 3).lastSeq ≠ some auxFields.seq
      ∧ 12 < min (((gated .active 6 12).works.entry 3).frames + 1) 255
      ∧ (gated .silent 6 11).works.lookup node = .roster 3 .silent
      ∧ (gated .lost 6 11).works.lookup node = .roster 3 .lost
      ∧ min (((gated .lost 6 11).works.entry 3).frames + 1) 255 ≤ 12
      ∧ 0 < ((gated .lost 6 11).works.entry 3).interval ∧ (gated .lost 6 11).works.time < 0xFFFFFFFF
      ∧ ((gated .lost 6 11).works.entry 3).airZone = none
      ∧ (gated .lost 6 11).works.valveZone? node = none
      ∧ State.wantsCopy (gated .lost 6 11).works auxFields = false := by decide +kernel

theorem witness_strays :
    (straying true 28 .reserved).works.lookup node = .roster 3 .reserved
      ∧ (straying true 28 .free).works.lookup node = .none
      ∧ (straying true 28 .free).works.site.forwardStrays = true
      ∧ 4 ≤ (straying true 28 .free).works.freeSlots ∧ (straying true 29 .free).works.freeSlots < 4
      ∧ (straying false 0 .free).works.site.forwardStrays = false
      ∧ (straying true 0 .free).works.sourceValid node = true
      ∧ (straying true 0 .free).works.sourceValid 0 = false
      ∧ (straying true 0 .free).Unwatched := by
  refine ⟨by decide +kernel, by decide +kernel, by decide, by decide, by decide, by decide, by decide,
    by decide, ?_⟩
  unfold State.Unwatched
  decide

theorem test_gate :
    ((did .fclTakeFrame (arrived auxFrame (gated .active 6 12))).works.entry 3).state = .muted
      ∧ (said (did .fclTakeFrame (arrived auxFrame (gated .active 6 12))))
        = some [3, 0, 0, 3, 0xE8, 3, 0, 3, 0, 1, 1, 12]
      ∧ ((did .fclTakeFrame (arrived auxFrame (gated .lost 6 11))).works.entry 3).state = .active
      ∧ said (did .fclTakeFrame (arrived auxFrame (gated .lost 6 11)))
        = some [2, 0, 0, 3, 0xE8, 3, 0, 3, 0, 1, 1]
      ∧ ((did .fclTakeFrame (arrived auxFrame (gated .silent 7 11))).works.entry 3).state = .silent
      ∧ said (did .fclTakeFrame (arrived auxFrame (straying true 28 .free)))
        = some ([2, 0, 0, 3, 0xE8, 0, 0] ++ auxFrame)
      ∧ (did .fclTakeFrame (arrived auxFrame (straying true 29 .free))).works.latches.uplinkShed
        = true := by decide +kernel

def holding (n : Nat) : State :=
  { running with
    held := some { block := .vcu, item := { frame := auxFrame, hit := .none, role := none } },
    vcuQueue := List.replicate n { frame := [], hit := .none, role := none } }

theorem witness_held :
    ((holding 7).queueOf .vcu).length < 8 ∧ 8 ≤ ((holding 8).queueOf .vcu).length := by decide

theorem test_handOff :
    (did .fclHandOff (holding 7)).vcuQueue.length = 8 ∧ (did .fclHandOff (holding 7)).held = none
      ∧ (did .fclHandOff (holding 8)).held = (holding 8).held := by decide +kernel

/-! ### Readings -/

/-- A MOISTURE reading of 300 by direct window 1, with n samples already in zone 2's accumulator. -/
def windowReading (n : Nat) : State :=
  { State.withWorks running (fun w => { w with tables := { tables2 with
      windows := tables2.windows.set 1
        { enabled := true, low := node, high := node, zone := 2, cls := 0 } } }) with
    windows := running.windows.set 0 { Window.cleared.openAt 1000 900 with
      acc := (Vector.replicate 40 Acc.cleared).set 2
        { count := n, sum := 10, min := some 4, max := some 6, overflow := 65535 } },
    swuQueue := [handed 0x01 [1, 0, 0, 0x01, 0x2C] (.window 1 2 0)] }

theorem witness_windowReading :
    fieldFrame? (fromNode 0x01 [1, 0, 0, 0x01, 0x2C])
        = some { auxFields with payload := [1, 0, 0, 0x01, 0x2C] }
      ∧ readingList? [1, 0, 0, 0x01, 0x2C] = some [{ channel := 0, cls := 0, raw := 300 }]
      ∧ (windowReading 254).works.tables.classes[0].lower ≤ 300
      ∧ 300 ≤ (windowReading 254).works.tables.classes[0].upper
      ∧ ((windowReading 254).works.cfg 2).inUse = true ∧ (windowReading 254).windows[0].isOpen = true
      ∧ (windowReading 254).windows[0].acc[2].count < 255
      ∧ 255 ≤ (windowReading 255).windows[0].acc[2].count
      ∧ (windowReading 254).works.windowOf? node = some 1
      ∧ (windowReading 254).works.tables.windows[1].zone = 2
      ∧ (windowReading 254).works.tables.windows[1].cls = 0
      ∧ running.works.windowOf? node = none := by decide +kernel

theorem test_windowReading :
    (did .swuTakeReading (windowReading 254)).windows[0].acc[2]
        = { count := 255, sum := 310, min := some 4, max := some 300, overflow := 65535 }
      ∧ (did .swuTakeReading (windowReading 255)).windows[0].acc[2]
        = { count := 255, sum := 10, min := some 4, max := some 6, overflow := 65535 }
      ∧ (did .swuTakeReading { windowReading 254 with
          swuQueue := [handed 0x01 [1, 1, 0, 0x01, 0x2C] (.window 1 2 0)] }).works.latches.bounds = true
      ∧ (did .swuTakeReading { windowReading 254 with works := running.works }).windows
        = (windowReading 254).windows := by
  decide +kernel

def keptReading : State := { sensing with swuQueue := [handed 0x01 [1, 0, 3, 0, 100] (.roster 3 .active)] }

/-- 100 at scale 2047 and offset 5 is 204, inside −300 to 300. -/
theorem witness_rosterReading :
    fieldFrame? (handed 0x01 [1, 0, 3, 0, 100] (.roster 3 .active)).frame = some auxFields
      ∧ readingList? auxFields.payload = some [{ channel := 0, cls := 3, raw := 100 }]
      ∧ (keptReading.works.entry 3).state.enrolled = true ∧ (keptReading.works.entry 3).id = node
      ∧ (keptReading.works.entry 3).channels[0]? = some aux
      ∧ keptReading.works.tables.classes[3].lower ≤ calibrate 100 2047 5
      ∧ calibrate 100 2047 5 ≤ keptReading.works.tables.classes[3].upper := by decide +kernel

theorem witness_rosterFrame :
    keptReading.RosterFrame (handed 0x01 [1, 0, 3, 0, 100] (.roster 3 .active)) [] auxFields 3 .active
      [{ channel := 0, cls := 3, raw := 100 }] :=
  ⟨rfl, rfl, by decide +kernel, by decide, by decide, by decide⟩

/-- A reading of channel 0 and class k, value v, of entry 3: zone 2 in use, or its channel in no zone; the
quarantine limit of class 3 is 2. -/
def judging (k : ClassCode) (v : Byte) (zone : Option ZoneIx) (streak : Nat) (x : Zone) : State :=
  { withEntry { member .sensor [{ cls := k, offset := 0, scale := 1024, latest := none }] with
      zone := zone, badStreak := streak } (withZone x (copying 0 0)) with
    swuQueue := [handed 0x01 [1, 0, byte k.val, 0, v] (.roster 3 .active)] }

/-- The same where the test node is the flow meter, with a leak limit of 5 and no zone for it. -/
def metering (v : Byte) : State :=
  State.withWorks (judging 4 v none 0 zone0) fun w =>
    { w with tables := { w.tables with
        site := { w.tables.site with meter := some node, leakLimit := 5 } } }

theorem witness_routes :
    ((judging 0 9 (some 2) 0 zone0).works.cfg 2).inUse = true
      ∧ ((judging 0 9 (some 3) 0 zone0).works.cfg 3).inUse = false
      ∧ ((judging 2 9 (some 2) 0 zone0).works.entry 3).zone = some 2
      ∧ ((judging 1 9 none 0 zone0).works.entry 3).zone = none
      ∧ (metering 9).works.site.meter = some node ∧ (judging 4 9 none 0 zone0).works.site.meter = none
      ∧ (judging 5 0 none 0 zone0).works.valveZone? node = some 2
      ∧ keptReading.works.valveZone? node = none
      ∧ ((judging 5 0 none 0 { zone0 with valve := .stuck }).works.zone 2).valve = .stuck
      ∧ ((judging 5 1 none 0 zone0).works.zone 2).valve = .closed
      ∧ ((judging 5 1 none 0 zone0).works.zone 2).cmd = none
      ∧ (judging 5 1 none 0 zone0).works.tables.classes[5].upper = 1
      ∧ (judging 4 9 none 0 zone0).works.tables.classes[4].upper = 9999 := by decide +kernel

/-- A trapped reading: a class that does not match, at the quarantine limit of 4 and one below it, and a
channel that is not there, with a class that has a limit and one that has none. -/
theorem witness_trapped :
    ((judging 0 9 (some 2) 3 zone0).works.entry 3).channels[0]?
        = some { cls := 0, offset := 0, scale := 1024, latest := none }
      ∧ (judging 0 9 (some 2) 3 zone0).works.tables.classes[0].quarantine = 4
      ∧ ((judging 0 9 (some 2) 3 zone0).works.entry 3).badStreak = 3
      ∧ ((judging 0 9 (some 2) 2 zone0).works.entry 3).badStreak = 2
      ∧ ((judging 0 9 (some 2) 3 zone0).works.entry 3).airZone = none
      ∧ ((judging 0 9 (some 2) 3 zone0).works.entry 3).channels[1]? = none
      ∧ classCode? 5 = some 5 ∧ classCode? 6 = none := by decide +kernel

theorem test_rosterReading :
    ((did .swuTakeReading keptReading).works.entry 3).channels = [{ aux with latest := some 204 }]
      ∧ (did .swuTakeReading (judging 0 9 (some 2) 0 zone0)).windows[0].acc[2].sum = 9
      ∧ ((did .swuTakeReading (judging 2 9 (some 2) 0 zone0)).works.zone 2).confirm = 1
      ∧ (did .swuTakeReading (metering 9)).works.latches.leak = true
      ∧ ((did .swuTakeReading (judging 5 0 none 0 { zone0 with valve := .stuck })).works.zone 2).valve
        = .closed
      ∧ ((did .swuTakeReading (judging 5 1 none 0 zone0)).works.zone 2).valve = .stuck := by
  decide +kernel

/-- A reading of 2000, above the bound of MOISTURE. -/
def trapping (streak : Nat) : State :=
  { judging 0 9 (some 2) streak zone0 with
    swuQueue := [handed 0x01 [2, 0, 0, 7, 0xD0, 0, 0, 0, 9] (.roster 3 .active)] }

theorem test_trapped :
    ((did .swuTakeReading (trapping 3)).works.entry 3).state = .quarantined
      ∧ ((did .swuTakeReading (trapping 3)).works.entry 3).badStreak = 4
      ∧ ((did .swuTakeReading (trapping 2)).works.entry 3).badStreak = 0
      ∧ (did .swuTakeReading (trapping 2)).works.latches.bounds = true := by decide +kernel

/-! ### Enrollment -/

/-- A JOIN of a SENSOR that continues, interval 30, with channels MOISTURE and AIR_WET. -/
def joinBytes : Bytes := [0, 1, 0, 30, 2, 0, 2]

def joinFields : FieldFrame := { auxFields with kind := 0x02, payload := joinBytes }

def joinSpec : Join := { role := .sensor, continues := true, interval := 30, declared := [0, 2] }

def joining (n : Entry) : State :=
  { withEntry n running with enuQueue := [handed 0x02 joinBytes .none] }

def reservedNode : Entry := { member .sensor [] with state := .reserved, interval := 0 }

theorem witness_join :
    fieldFrame? (handed 0x02 joinBytes .none).frame = some joinFields
      ∧ join? joinBytes = some joinSpec
      ∧ (joining reservedNode).works.sourceValid node = true
      ∧ (joining reservedNode).works.lookup node = .roster 3 .reserved
      ∧ ((joining reservedNode).works.entry 3).state = .reserved
      ∧ ((joining reservedNode).works.entry 3).id = node
      ∧ ((joining reservedNode).works.entry 3).channels = []
      ∧ (joining reservedNode).works.tables.roles[0].allowed = true
      ∧ (joining reservedNode).works.site.policy ≠ .closed
      ∧ ((joining reservedNode).works.entry 3).role = .sensor
      ∧ (joining reservedNode).works.freeCtx? = some 0
      ∧ (joining reservedNode).works.command.length ≤ 14 := by decide +kernel

/-- The interval of 30 is raised to the role's least, 60. -/
theorem test_join :
    ((did .join (joining reservedNode)).works.ctx 0).map Ctx.deadline = some (some 1020)
      ∧ ((did .join (joining reservedNode)).works.entry 3).state = .enrolling
      ∧ sentCommand (did .join (joining reservedNode)) = some (0x04, [0, 60]) := by decide +kernel

def joiningWindow (policy : Policy) (enabled : Bool) : State :=
  State.withWorks (joining (Entry.free 0)) fun w =>
    { w with tables := { w.tables with
      windows := w.tables.windows.set 0
        { enabled := enabled, low := node, high := node, zone := 1, cls := 0 },
      site := { w.tables.site with policy := policy } } }

theorem witness_joinRefused :
    (joiningWindow .closed false).works.lookup node = .none
      ∧ (joiningWindow .closed false).works.tables.roles[0].allowed = true
      ∧ (joiningWindow .closed false).works.site.policy = .closed
      ∧ (joiningWindow .listed false).works.lookup node = .none
      ∧ (joiningWindow .listed false).works.site.policy = .listed
      ∧ (joiningWindow .anyone true).works.lookup node = .window 0 1 0 := by decide +kernel

theorem test_joinRefused :
    sentCommand (did .join (joiningWindow .closed false)) = some (0x06, [3])
      ∧ sentCommand (did .join (joiningWindow .listed false)) = some (0x06, [1])
      ∧ sentCommand (did .join (joiningWindow .anyone true)) = some (0x06, [2]) := by decide +kernel

/-- A context of entry 3 with five sheets accepted. -/
def ctx5 : Ctx := exchange 3 .reserved

def enrolling (kind : Byte) (payload : Bytes) : State :=
  State.withWorks { withEntry { member .sensor [] with state := .enrolling } running with
      enuQueue := [handed kind payload (.roster 3 .enrolling)] }
    fun w => { w with ctxs := w.ctxs.set 0 (some ctx5) }

/-- CAL of channel 1: offset −500, scale 512, the ends of their ranges; more sheets follow. -/
def sheetBytes : Bytes := [1, 1, 1, 1, 0xFE, 0x0C, 0x02, 0x00]

theorem witness_sheet :
    fieldFrame? (handed 0x03 sheetBytes (.roster 3 .enrolling)).frame
        = some { auxFields with kind := 0x03, payload := sheetBytes }
      ∧ sheet? sheetBytes = some { mark := true, continues := true, body := .cal 1 (-500) 512 }
      ∧ (enrolling 0x03 sheetBytes).works.sourceValid node = true
      ∧ (enrolling 0x03 sheetBytes).works.lookup node = .roster 3 .enrolling
      ∧ (enrolling 0x03 sheetBytes).works.ctxOf 3 = some 0
      ∧ (enrolling 0x03 sheetBytes).works.ctx 0 = some ctx5 ∧ ctx5.expected = true
      ∧ ctx5.sheets < 6 ∧ 1 < ctx5.declared.length
      ∧ (enrolling 0x03 sheetBytes).works.command.length ≤ 14 := by decide +kernel

theorem test_sheet :
    ((did .sheet (enrolling 0x03 sheetBytes)).works.ctx 0).map (fun x => (x.sheets, x.staged[1]))
        = some (6, some { offset := -500, scale := 512 })
      ∧ sentCommand (did .sheet (enrolling 0x03 sheetBytes)) = some (0x05, [1, 1]) := by decide +kernel

/-- The same sheet as the last of its exchange. -/
def lastSheet : State := enrolling 0x03 [1, 0, 1, 1, 0xFE, 0x0C, 0x02, 0x00]

theorem witness_lastSheet :
    sheet? [1, 0, 1, 1, 0xFE, 0x0C, 0x02, 0x00]
        = some { mark := true, continues := false, body := .cal 1 (-500) 512 }
      ∧ fieldFrame? (handed 0x03 [1, 0, 1, 1, 0xFE, 0x0C, 0x02, 0x00] (.roster 3 .enrolling)).frame
        = some { auxFields with kind := 0x03, payload := [1, 0, 1, 1, 0xFE, 0x0C, 0x02, 0x00] }
      ∧ lastSheet.works.ctx 0 = some ctx5 ∧ lastSheet.works.lookup node = .roster 3 .enrolling
      ∧ 0 < ctx5.interval ∧ lastSheet.works.time < 0xFFFFFFFF
      ∧ ((did .sheet lastSheet).works.entry 3).airZone = none
      ∧ lastSheet.works.valveZone? node = none := by decide +kernel

theorem test_lastSheet :
    (did .sheet lastSheet).works.ctx 0 = none
      ∧ ((did .sheet lastSheet).works.entry 3).state = .active
      ∧ ((did .sheet lastSheet).works.entry 3).channels
        = [{ cls := 0, offset := 0, scale := 1024, latest := none },
           { cls := 2, offset := -500, scale := 512, latest := none }]
      ∧ (said (did .sheet lastSheet)) = some ([5, 0, 0, 3, 0xE8, 3, 0] ++ [0, 1, 1, 0, 0xFF, 0, 60, 1, 0]
          ++ List.replicate 9 0) := by decide +kernel

theorem witness_earlyTraffic :
    ((enrolling 0x01 [1, 0, 3, 0, 100]).works.entry 3).state = .enrolling
      ∧ ((enrolling 0x01 [1, 0, 3, 0, 100]).works.entry 3).id = auxFields.src
      ∧ (enrolling 0x01 [1, 0, 3, 0, 100]).works.ctxOf 3 = some 0
      ∧ (enrolling 0x01 [1, 0, 3, 0, 100]).works.ctx 0 = some ctx5
      ∧ fieldFrame? (fromNode 0x01 [1, 0, 3, 0, 100]) = some auxFields := by decide +kernel

theorem test_earlyTraffic :
    ((did .earlyTraffic (enrolling 0x01 [1, 0, 3, 0, 100])).works.ctx 0).map Ctx.early
      = some true := by decide +kernel

/-- SheetDeadlineFailsExchange: reached at 1000, not yet at 999. -/
theorem witness_sheetDeadline :
    (enrolling 0x01 []).works.ctx 0 = some ctx5 ∧ ctx5.deadline = some 1000
      ∧ (enrolling 0x01 []).works.time = 1000 := by decide

theorem test_sheetDeadline :
    (did (.sheetDeadline 0) (enrolling 0x01 [])).works.ctx 0 = none
      ∧ ((did (.sheetDeadline 0) (enrolling 0x01 [])).works.entry 3).state = .reserved
      ∧ (did (.sheetDeadline 0) (State.withWorks (enrolling 0x01 []) fun w =>
          { w with time := 999 })).works.ctx 0 = some ctx5 := by decide +kernel

/-! ### Time and the ports -/

def quiet (state : NodeState) (heard : Nat) : State :=
  withEntry { member .sensor [{ aux with latest := some 1 }] with state := state, lastHeard := heard }
    running

theorem witness_silence :
    running.works.device = .running ∧ ((quiet .active 820).works.entry 3).state = .active
      ∧ after ((quiet .active 820).works.entry 3).lastHeard
          (3 * ((quiet .active 820).works.entry 3).interval) ≤ (quiet .active 820).works.time
      ∧ ((quiet .silent 400).works.entry 3).state = .silent
      ∧ after ((quiet .silent 400).works.entry 3).lastHeard
          (10 * ((quiet .silent 400).works.entry 3).interval) ≤ (quiet .silent 400).works.time := by
  decide +kernel

theorem test_silence :
    ((did (.silenceDeadline 3) (quiet .active 820)).works.entry 3).state = .silent
      ∧ ((did (.silenceDeadline 3) (quiet .active 821)).works.entry 3).state = .active := by
  decide +kernel

theorem test_loss :
    ((did (.lossDeadline 3) (quiet .silent 400)).works.entry 3).channels = [aux]
      ∧ ((did (.lossDeadline 3) (quiet .silent 401)).works.entry 3).state = .silent := by decide +kernel

theorem test_tick :
    (did .deviceTimeTick running).works.time = 1001
      ∧ (did .deviceTimeTick (State.withWorks running fun w =>
          { w with time := 0xFFFFFFFF })).works.time = 0xFFFFFFFF := by decide +kernel

/-- A state with a frame in each of some transmit queues. -/
def waitingTx (urgent command pass : List Bytes) : State :=
  State.withWorks running fun w => { w with urgent := urgent, command := command, pass := pass }

def flying : State := { running with inFlight := some { frame := [1], expiry := 1000 } }

theorem witness_transmission :
    running.inFlight = none ∧ flying.inFlight ≠ none
      ∧ flying.inFlight = some { frame := [1], expiry := 1000 } ∧ flying.works.time = 1000
      ∧ (waitingTx [[1]] [[2]] [[3]]).works.urgent = [[1]]
      ∧ (waitingTx [] [[2]] [[3]]).works.command = [[2]]
      ∧ (waitingTx [] [] [[3]]).works.pass = [[3]] := by decide

theorem test_transmission :
    (did .fieldTxHandOff (waitingTx [[1]] [[2]] [[3]])).inFlight = some { frame := [1], expiry := 1002 }
      ∧ (did .fieldTxHandOff (waitingTx [] [[2]] [[3]])).inFlight
        = some { frame := [2], expiry := 1002 }
      ∧ (did .fieldTxHandOff (waitingTx [] [] [[3]])).works.pass = [] := by decide +kernel

theorem test_answers :
    (did (.fieldTxAnswer .notSent .inFlight) flying).inFlight = none
      ∧ (did (.fieldTxAnswer .sent .ended) flying).inFlight = flying.inFlight
      ∧ (did .answerWaitExpiry flying).inFlight = none := by decide +kernel

theorem witness_uplink :
    running.ready = true ∧ uplinkFrameGood (uplinkFrame 0x01 9 [0x01]) = true
      ∧ (uplinkFrame? (uplinkFrame 0x01 9 [0x01])).map UplinkFrame.kind = some 0x01
      ∧ uplinkFrameGood [0, 6, 1] = false
      ∧ (uplinkFrame? (uplinkFrame 0x02 9 [0x01])).map UplinkFrame.kind ≠ some 0x01
      ∧ ({ running with requests := List.replicate 8 [] } : State).ready = false
      ∧ running.resetLeaving = false := by decide +kernel

theorem test_uplinkReceived :
    (did (.uplinkFrameReceived (uplinkFrame 0x01 9 [0x01])) running).works.reserved = 1
      ∧ (did (.uplinkFrameReceived (uplinkFrame 0x01 9 [0x01]))
          { running with requests := List.replicate 8 [] }).works.uplinkErrors = 1 := by decide +kernel

theorem test_uplinkSent :
    (did .uplinkFrameSent (State.withWorks running fun w =>
      { w with upQueue := [[1], [2]] })).works.upQueue = [[2]] := by decide +kernel

theorem witness_composed : ([0, 30] : Bytes).length ≤ 40 ∧ ([] : Bytes).length ≤ 250 := by decide

/-- NoticesMaskedQueuedOrLost: enabled with a slot, enabled without one, masked. -/
theorem witness_notice :
    running.works.mask[NoticeKind.leak.ix] = true ∧ 1 ≤ running.works.freeSlots
      ∧ ({ running.works with reserved := 32 } : Works).freeSlots = 0
      ∧ ({ running.works with mask := Vector.replicate 18 false } : Works).mask[NoticeKind.leak.ix]
        = false := by decide

/-! ### Windows and estimates -/

/-- Time stands at the close deadline of window A; a commit waits. -/
def closing : State :=
  { State.withWorks running (fun w => { w with time := 1900, tables := tables2 }) with
    bank := tables2, commitPending := true,
    folds := running.folds.set 0 (some ({ running.works with tables := tables2 } : Works).foldRecord),
    windows := running.windows.set 0 { Window.cleared.openAt 1000 900 with
      acc := (Vector.replicate 40 Acc.cleared).set 2
        { count := 3, sum := -10, min := some (-9), max := some 2, overflow := 0 } } }

theorem witness_windowClose :
    closing.windows[0].isOpen = true ∧ closing.windows[State.otherWindow 0].isOpen = false
      ∧ closing.windows[0].closeDeadline = some 1900 ∧ closing.works.time = 1900
      ∧ State.otherWindow 1 = 0 ∧ closing.commitPending = true ∧ running.commitPending = false
      ∧ (closing.works.foldWindow closing.windows[0].acc closing.works.foldRecord).rosterClose.validate
          closing.bank = none := by decide +kernel

/-- The bank that fails on the controller id leaves the tables as they are. -/
theorem witness_windowClose_fails :
    (closing.works.foldWindow closing.windows[0].acc closing.works.foldRecord).validate
        { tables2 with site := { tables2.site with controller := 0 } } ≠ none := by decide +kernel

/-- Overlap is of ids: a row whose ids are out of order overlaps nothing, and is itself the row at
fault (R9, R183). -/
theorem test_windowFault :
    (running.works.validate { Tables.default with
      windows := (Tables.default.windows.set 0
          { enabled := true, low := 10, high := 20, zone := 0, cls := 0 }).set 1
          { enabled := true, low := 18, high := 12, zone := 0, cls := 0 } })
      = some { reason := .window, table := .window, row := 1 } := by decide +kernel

theorem test_windowClose :
    (did (.windowClose .beforeCommit) closing).windows[0].closedAt = some 1900
      ∧ (did (.windowClose .beforeCommit) closing).windows[1].closeDeadline = some 2800
      ∧ ((did (.windowClose .beforeCommit) closing).works.zone 2).estimate = some (-3)
      ∧ (did (.windowClose .beforeCommit) closing).commitPending = false := by decide +kernel

theorem witness_fold :
    (closing.works.foldRecord[2]).inUse = true ∧ (closing.works.cfg 2).inUse = true
      ∧ 0 < closing.windows[0].acc[2].count ∧ closing.windows[1].acc[2].count = 0
      ∧ (closing.works.foldRecord[3]).inUse = false := by decide +kernel

/-- Zones 0 to 16 in use. -/
def reporting (reserved : Nat) : State :=
  State.withWorks running fun w =>
    { w with
      reserved := reserved,
      tables := { w.tables with
        zones := mapRows (fun z : ZoneIx => { ZoneCfg.default with inUse := decide (z.val ≤ 16) })
          (⟨allZones.toArray, by simp [allZones]⟩ : Vector ZoneIx 40) } }

theorem witness_reports :
    ((List.finRange 40).filter fun z => ((reporting 28).works.cfg z).inUse).length = 17
      ∧ (reporting 28).works.freeSlots = 4 ∧ (reporting 29).works.freeSlots < 4
      ∧ ((List.finRange 40).filter fun z => (closing.works.cfg z).inUse) = [2]
      ∧ ((List.finRange 40).filter fun z => (running.works.cfg z).inUse) = []
      ∧ 4 ≤ closing.works.freeSlots := by decide +kernel

theorem test_reports :
    (reporting 28).works.reportGroups.map List.length = [16, 1]
      ∧ ((reporting 28).works.sendReports 0 900 running.windows[0].acc).upQueue.length = 1
      ∧ ((reporting 28).works.sendReports 0 900 running.windows[0].acc).latches.reportShed = true := by
  decide +kernel

/-- Zones 0 to 16 in use at a close; the node of entry 3 ends its mute there and is long past its loss
deadline. -/
def lostAtClose : State :=
  withEntry { Entry.free 5 with id := node, state := .muted, muteCloses := 1, interval := 60 }
    (State.withWorks (reporting 0) fun w => { w with time := 1900 })

/-- REPORT is 04h and NOTICE 03h; the third REPORT is not there, so its turn is after the last. -/
theorem test_nrsAmongReports :
    let kinds := fun turn => (did (.windowClose turn) lostAtClose).works.upQueue.map fun f => f[2]?
    kinds .beforeReports = [some 0x03, some 0x04, some 0x04]
      ∧ kinds (.afterReport 0) = [some 0x04, some 0x03, some 0x04]
      ∧ kinds (.afterReport 2) = [some 0x04, some 0x04, some 0x03]
      ∧ kinds (.beforeZone 7) = [some 0x04, some 0x04, some 0x03] := by decide +kernel

/-- Zone 2, dry enough to be watered, with a gather time and perhaps a run in slot i. -/
def dry (gather : Nat) : State :=
  State.withWorks (withZone { zone0 with auto := true, quality := .fresh, estimate := some 100 } running)
    fun w => { w with tables := { w.tables with site := { w.tables.site with gatherTime := gather } } }

def gatheringOther (n : Nat) : State :=
  withRun 11 { run1 .gathering (List.replicate n (RunEntry.waiting 5 (some 1))) with
    gatherDeadline := some 2000 } (dry 120)

def fullQueue : State :=
  State.withWorks (dry 120) fun w => { w with
    runs := Vector.replicate 12 (some (run1 .queued [])) }

theorem witness_trigger :
    (dry 120).works.mayTrigger 2 = true ∧ (100 : Int) < ((dry 120).works.cfg 2).refill
      ∧ (dry 120).works.offer = false ∧ (dry 120).works.closes = []
      ∧ (dry 120).works.gatheringRun? = none ∧ (dry 120).works.newSlot? = some 1
      ∧ (dry 120).works.site.gatherTime = 120 ∧ (dry 0).works.site.gatherTime = 0
      ∧ ((gatheringOther 7).works.gatheringRun?.map Prod.fst) = some 11
      ∧ ((gatheringOther 7).works.gatheringRun?.map fun p => p.2.entries.length) = some 7
      ∧ ((gatheringOther 8).works.gatheringRun?.map fun p => p.2.entries.length) = some 8
      ∧ ((gatheringOther 7).works.gatheringRun?.map fun p => p.2.entry? 2) = some none
      ∧ (gatheringOther 7).works.demandOf 2 ≤ (gatheringOther 7).works.site.capacity
      ∧ (gatheringOther 7).works.demandOf 5 = 100 ∧ fullQueue.works.newSlot? = none
      ∧ fullQueue.works.mayTrigger 2 = true ∧ fullQueue.works.gatheringRun? = none
      ∧ running.works.mayTrigger 2 = false := by decide +kernel

theorem test_trigger :
    ((dry 120).works.trigger 2).run 1 = some
        { number := 1, serial := 0, kind := .irrigation, origin := .auto, state := .gathering,
          created := 1000, gatherDeadline := some 1120, flowDeadline := none, closeCause := none,
          entries := [RunEntry.waiting 2 (some ((dry 120).works.autoTarget 2 100))] }
      ∧ (fullQueue.works.trigger 2).latches.runFull = true
      ∧ (((dry 0).works.trigger 2).run 1).map Run.state = some .opening := by decide +kernel

/-! ### Frost -/

/-- THAWING until 1000, with a dry figure at the clear margin. -/
def thawing : State :=
  withZone { zone0 with frost := .thawing, thaw := some 1000,
                        dry := some { value := 35, source := .own } } running

/-- The same with the zone's frost entry OPEN. -/
def thawingOpen : State :=
  withRun 0 { run1 .flowing [{ RunEntry.waiting 2 none with
      state := .opened, openSince := some 400 }] with kind := .frost }
    (State.withWorks thawing fun w => { w with
      zones := w.zones.set 2 { thawing.works.zone 2 with valve := .opened, runSlot := some 0 } })

theorem witness_thaw_entry :
    (thawingOpen.works.zone 2).frost = .thawing ∧ (thawingOpen.works.zone 2).thaw = some 1000
      ∧ (thawingOpen.works.frostRun?.bind fun r => (r.entry? 2).map RunEntry.state) = some .opened
      ∧ (thawingOpen.works.zone 2).valve = .opened ∧ thawingOpen.works.offer = false
      ∧ thawingOpen.works.closes = [] ∧ thawingOpen.works.touched = [] := by decide +kernel

theorem witness_thaw :
    (thawing.works.zone 2).frost = .thawing ∧ (thawing.works.zone 2).thaw = some 1000
      ∧ thawing.works.time = 1000 := by decide

theorem test_thaw :
    ((did (.thawDeadline 2) thawing).works.zone 2).frost = .clear
      ∧ ((did (.thawDeadline 2) (State.withWorks thawing fun w =>
          { w with time := 999 })).works.zone 2).frost = .thawing
      ∧ ((did (.thawDeadline 2) thawingOpen).works.run 0).map (fun r =>
          r.entries.map fun e => (e.state, e.closeCause)) = some [(.closing, some .complete)]
      ∧ ((did (.thawDeadline 2) thawingOpen).works.zone 2).valve = .closing := by decide +kernel

def alarmed (queued : Nat) : State :=
  State.withWorks (withZone { zone0 with frost := .unprotected } running) fun w =>
    { w with alert := true, alertTimer := some 1000, urgent := List.replicate queued [] }

theorem witness_alert :
    (alarmed 7).works.alert = true ∧ (alarmed 7).works.alertTimer = some 1000
      ∧ (alarmed 7).works.time = 1000 ∧ (alarmed 7).works.urgent.length < 8
      ∧ 8 ≤ (alarmed 8).works.urgent.length := by decide

/-- AlertTimerSendsAlert: the first zone to call, one among the states that call, and the last to leave
them. -/
theorem witness_alertPin :
    ((withZone zone0 running).works.zone 2).frost ≠ .warning
      ∧ (withZone zone0 running).works.alert = false ∧ (withZone zone0 running).works.urgent.length < 8
      ∧ ((alarmed 8).works.zone 2).frost ≠ .warning ∧ ((alarmed 8).works.zone 2).frost ≠ .clear := by
  decide

theorem test_alertPin :
    ((withZone zone0 running).works.setFrost 2 .warning none .reading).alert = true
      ∧ ((withZone zone0 running).works.setFrost 2 .warning none .reading).alertTimer = some 1060
      ∧ ((alarmed 8).works.setFrost 2 .clear none .control).alert = false := by decide +kernel

def wetChannel (v : Int) : Channel := { cls := 2, offset := 0, scale := 1024, latest := some v }

/-- Zone 2's own wet figure from two entries, zone 6 with zone 2 as its reference. -/
def sensors (states : NodeState × NodeState) (device : Device) (blind : Bool) : State :=
  State.withWorks (withZone { zone0 with ownWet := some 7, blind := blind } running) fun w =>
    { w with
      device := device,
      roster := (w.roster.set 4 { member .sensor [wetChannel 12, wetChannel 8] with
          state := states.1, zone := some 2, id := 0x104 }).set 5
        { member .sensor [wetChannel 3] with state := states.2, zone := some 2, id := 0x105 },
      tables := { w.tables with
        zones := w.tables.zones.set 6
          { ZoneCfg.default with inUse := true, reference := some 2 } } }

/-- FrostFiguresFollowSensors: a MUTED sensor is none, a SILENT one is; zone 6 borrows; the flag flips
both ways. -/
theorem witness_figures :
    (sensors (.silent, .muted) .running true).works.ownFigure 2 2 = some 8
      ∧ (sensors (.lost, .muted) .running true).works.ownFigure 2 2 = none
      ∧ (sensors (.active, .active) .running true).works.ownFigure 2 2 = some 3
      ∧ (sensors (.active, .active) .running true).works.pickFigure 6 Zone.ownWet
        = some { value := 7, source := .reference }
      ∧ (sensors (.active, .active) .running true).works.pickFigure 2 Zone.ownWet
        = some { value := 7, source := .own }
      ∧ (sensors (.active, .active) .running true).works.pickFigure 5 Zone.ownWet = none
      ∧ ((sensors (.active, .active) .running true).works.zone 2).blind = true
      ∧ ((withZone { zone0 with blind := false } running).works.zone 2).blind = false
      ∧ (withZone { zone0 with blind := false } running).works.pickFigure 2 Zone.ownWet = none
      ∧ (sensors (.active, .active) .halted true).works.device = .halted := by decide +kernel

theorem test_figures :
    (((sensors (.silent, .muted) .running true).works.frostEvent 2 false .node).zone 2).wet
        = some { value := 8, source := .own }
      ∧ (((sensors (.silent, .muted) .running true).works.frostEvent 2 false .node).zone 6).wet
        = some { value := 8, source := .reference }
      ∧ ((sensors (.active, .active) .running true).works.formFigures 2).upQueue
        = [uplinkFrame 0x03 0 ([9, 0, 0, 3, 0xE8, 2, 0] ++ [2, 0, 7, 0, 0])]
      ∧ ((withZone { zone0 with blind := false } running).works.formFigures 2).upQueue
        = [uplinkFrame 0x03 0 ([8, 0, 0, 3, 0xE8, 2, 0] ++ [2, 0, 0, 0, 0])] := by decide +kernel

/-- Zone 2 UNPROTECTED is listed as C2h. -/
theorem test_alert :
    sentUrgent (did .alertTimerExpiry (alarmed 7)) = some (0x09, [0xC2])
      ∧ (did .alertTimerExpiry (alarmed 8)).works.alertTimer = some 1060 := by decide +kernel

/-- UnprotectedEvaluation: at release wet, and one below it. -/
theorem witness_unprotected :
    ((alarmed 0).works.zone 2).frost = .unprotected ∧ ((alarmed 0).works.cfg 2).releaseWet = 20 := by
  decide

theorem test_unprotected :
    (((alarmed 0).works.evaluate 2 20 false .reading).zone 2).frost = .watch
      ∧ (((alarmed 0).works.evaluate 2 19 false .reading).zone 2).frost = .unprotected := by
  decide +kernel

/-- ConfirmCounterAdvances: a confirm count of 2 with the counter at 0 and at 1, no protection. -/
theorem witness_confirm :
    ((withZone zone0 running).works.zone 2).frost = .clear
      ∧ (9 : Int) < ((withZone zone0 running).works.cfg 2).warnWet
      ∧ ((withZone zone0 running).works.zone 2).confirm + 1
          < ((withZone zone0 running).works.cfg 2).confirmCount
      ∧ ((withZone { zone0 with confirm := 1 } running).works.cfg 2).confirmCount
          ≤ ((withZone { zone0 with confirm := 1 } running).works.zone 2).confirm + 1
      ∧ ((withZone zone0 running).works.zone 2).protect = false := by decide

theorem test_confirm :
    (((withZone zone0 running).works.evaluate 2 9 true .reading).zone 2).confirm = 1
      ∧ (((withZone { zone0 with confirm := 1 } running).works.evaluate 2 9 true .reading).zone 2).frost
        = .unprotected := by decide +kernel

/-! ### Runs, valves and the main line -/

def entry2 (state : EntryState) : RunEntry :=
  { RunEntry.waiting 2 (some 50) with state := state }

def gathering (state : EntryState) : State :=
  withRun 1 { run1 .gathering [entry2 state] with gatherDeadline := some 1000 }
    (withZone zone0 running)

theorem witness_gather :
    (gathering .waiting).works.run 1
        = some { run1 .gathering [entry2 .waiting] with gatherDeadline := some 1000 }
      ∧ (run1 .gathering [entry2 .waiting]).has .waiting = true
      ∧ (run1 .gathering [entry2 .withdrawn]).has .waiting = false
      ∧ (gathering .withdrawn).works.offer = false ∧ (gathering .withdrawn).works.closes = []
      ∧ (gathering .withdrawn).works.touched = [] ∧ (gathering .waiting).works.time = 1000 := by decide

/-- A gathered run that fits is admitted at once; one with nothing waiting is CANCELLED. -/
theorem test_gather :
    ((did (.gatherDeadline 1) (gathering .waiting)).works.run 1).map Run.state = some .opening
      ∧ ((did (.gatherDeadline 1) (gathering .withdrawn)).works.run 1).map Run.state
        = some .cancelled := by decide +kernel

/-- Zone 2 waits in the frost run; capacity and zone 5's irrigation run of slot 3 as given. -/
def freezing (capacity : Nat) (state : RunState) (entry : EntryState) : State :=
  withRun 0 { run1 .queued [RunEntry.waiting 2 none] with kind := .frost }
    (withRun 3 (run1 state [{ RunEntry.waiting 5 (some 50) with
        state := entry, openSince := if entry = .opened then some 940 else none }])
      (State.withWorks (withZone { zone0 with frost := .warning, runSlot := some 0 } running) fun w =>
        { w with
          zones := w.zones.set 5 { zone0 with
            valve := if entry = .opened then .opened else .closed, runSlot := some 3 },
          tables := { w.tables with
            zones := w.tables.zones.set 5 { ZoneCfg.default with
              inUse := true, valveNode := some node },
            site := { w.tables.site with capacity := capacity } } }))

/-- AdmissionSuspensionTransfer, the pass: zone 2 fits beside zone 5, fits when zone 5 is suspended, and
does not fit at all until held demand comes free. -/
theorem witness_pass :
    ((freezing 200 .flowing .opened).works.frostRun?.map fun r => r.zonesIn .waiting) = some [2]
      ∧ (freezing 200 .flowing .opened).works.admissible 2 = true
      ∧ (freezing 200 .flowing .opened).works.demandOf 2 = 100
      ∧ (freezing 200 .flowing .opened).works.freeCapacity = 100
      ∧ (freezing 199 .flowing .opened).works.freeCapacity = 99
      ∧ (freezing 199 .flowing .opened).works.closingDemand = 0
      ∧ (freezing 199 .flowing .opened).works.runsByAge
          (fun x => x.state == .opening || x.state == .flowing) = [3]
      ∧ (freezing 199 .flowing .opened).works.suspensionYield 3 = 100
      ∧ (freezing 199 .queued .opened).works.runsByAge
          (fun x => x.state == .opening || x.state == .flowing) = []
      ∧ (freezing 199 .queued .opened).works.freeCapacity = 99 := by decide +kernel

/-- The judgment for an entry whose capacity is already coming free, and one that suspension cannot
cover. -/
theorem witness_pass_expected :
    (State.withWorks (freezing 100 .flowing .opened) fun w => w.setValve 5 .closing).works.closingDemand
        = 100
      ∧ (State.withWorks (freezing 100 .flowing .opened) fun w => w.setValve 5 .closing).works.freeCapacity
        = 0
      ∧ (State.withWorks (freezing 100 .flowing .waiting) fun w => w.setValve 5 .stuck).works.freeCapacity
        = 0
      ∧ (State.withWorks (freezing 100 .flowing .waiting) fun w => w.setValve 5 .stuck
          ).works.suspensionYield 3 = 0
      ∧ ((freezing 100 .flowing .waiting).works.frostEntry? 2).map RunEntry.shortNoted = some false := by
  decide +kernel

/-- Zone 5's run, suspended or queued, with no frost run. -/
def queueing (capacity : Nat) (state : RunState) : State :=
  State.withWorks (freezing capacity state .waiting) fun w => w.setRun 0 none

theorem witness_pass_runs :
    (queueing 100 .suspended).works.runsByAge (fun x => x.state == .suspended) = [3]
      ∧ (queueing 100 .queued).works.runsByAge (fun x => x.state == .suspended) = []
      ∧ (queueing 100 .queued).works.runsByAge (fun x => x.state == .queued) = [3]
      ∧ (queueing 100 .queued).works.frostRun? = none
      ∧ (queueing 100 .queued).works.admissible 5 = true
      ∧ (queueing 100 .queued).works.freeCapacity = 100
      ∧ (queueing 99 .queued).works.freeCapacity = 99 := by decide +kernel

theorem test_pass :
    ((freezing 200 .flowing .opened).works.admissionPass.frostEntry? 2).map RunEntry.state
        = some .opening
      ∧ ((freezing 199 .flowing .opened).works.admissionPass.run 3).map (fun r =>
          (r.state, r.entries.map fun e => (e.state, e.delivered, e.closeCause)))
        = some (.suspending, [(.closing, 50, some .suspend)])
      ∧ ((queueing 100 .queued).works.admissionPass.run 3).map Run.state = some .opening
      ∧ (queueing 99 .suspended).works.admissionPass.runs = (queueing 99 .suspended).works.runs := by
  decide +kernel

/-- Zone 5 is placed in the frost run while its irrigation entry stands in a state. -/
theorem witness_transfer :
    ((freezing 200 .flowing .opened).works.irrigationEntry? 5).map Prod.fst = some 3
      ∧ ((freezing 200 .flowing .opened).works.irrigationEntry? 5).map (fun p => p.2.state)
        = some .opened
      ∧ ((freezing 200 .flowing .closing).works.irrigationEntry? 5).map (fun p => p.2.state)
        = some .closing
      ∧ (freezing 200 .flowing .opened).works.frostEntry? 5 = none := by decide +kernel

theorem test_transfer :
    (((freezing 200 .flowing .opened).works.placeWork 5).frostEntry? 5).map
        (fun e => (e.state, e.openSince)) = some (.opened, some 1000)
      ∧ ((((freezing 200 .flowing .opened).works.placeWork 5).run 3).map fun r =>
          (r.state, r.entries.map RunEntry.state)) = some (.cancelled, [.withdrawn])
      ∧ ((((freezing 200 .flowing .opened).works.placeWork 5).zone 5).cmd.map Cmd.renewal) = some true := by
  decide +kernel

/-- Entry 2 OPEN with its completion deadline at 1000. -/
def watering : State :=
  withRun 1 (run1 .flowing [{ entry2 .opened with openSince := some 970, completion := some 1000 }])
    (withZone { zone0 with valve := .opened, runSlot := some 1 } running)

theorem witness_completion :
    watering.works.run 1
        = some (run1 .flowing [{ entry2 .opened with openSince := some 970, completion := some 1000 }])
      ∧ (watering.works.zone 2).valve = .opened ∧ watering.works.offer = false
      ∧ watering.works.closes = [] ∧ watering.works.touched = [] ∧ watering.works.time = 1000 := by
  decide

theorem test_completion :
    ((did (.completionDeadline 1 2) watering).works.run 1).map (fun r =>
        r.entries.map fun e => (e.state, e.delivered, e.closeCause))
        = some [(.closing, 50, some .complete)]
      ∧ sentUrgent (did (.completionDeadline 1 2) watering) = some (0x07, [2, 0, 0, 0]) := by
  decide +kernel

/-- A flow-confirm deadline of slot i at 1000. -/
def unconfirmed (i : SlotIx) : State :=
  withRun i { run1 .flowing [{ entry2 .opened with openSince := some 900 }] with
              flowDeadline := some 1000 }
    (withZone { zone0 with valve := .opened, runSlot := some i } running)

theorem witness_flowConfirm :
    ((unconfirmed 0).works.run 0).map Run.flowDeadline = some (some 1000)
      ∧ ((unconfirmed 11).works.run 11).map Run.flowDeadline = some (some 1000)
      ∧ (unconfirmed 0).works.offer = false ∧ (unconfirmed 0).works.closes = []
      ∧ (unconfirmed 0).works.touched = [] ∧ (unconfirmed 0).works.time = 1000 := by decide

theorem test_flowConfirm :
    ((did (.flowConfirmDeadline 11) (unconfirmed 11)).works.run 11).map Run.closeCause
        = some (some .fault)
      ∧ ((did (.flowConfirmDeadline 0) (unconfirmed 0)).works.run 0).map Run.flowDeadline
        = some none := by decide +kernel

/-- The run flows with an OPEN and a WAITING entry, or with a WAITING one alone. -/
theorem witness_faultRun :
    (run1 .flowing [{ entry2 .opened with openSince := some 900 },
        RunEntry.waiting 3 (some 9)]).state = .flowing
      ∧ ((withRun 1 (run1 .flowing [RunEntry.waiting 3 (some 9)]) running).works.run 1).isSome = true := by
  decide

theorem test_faultRun :
    ((unconfirmed 11).works.faultRun 11).run 11 = some
        { run1 .closing [{ entry2 .closing with
            delivered := 50, closeCause := some (.fault .flow) }] with closeCause := some .fault }
      ∧ ((withRun 1 (run1 .flowing [RunEntry.waiting 3 (some 9)]) running).works.faultRun 1).run 1
        = some (run1 .faulted [{ RunEntry.waiting 3 (some 9) with state := .withdrawn }]) := by
  decide +kernel

/-- A CLOSE numbered 6, tried n times, unanswered until 1000. -/
def closeCmd (n : Nat) : Cmd :=
  { kind := .closeValve, number := 6, attempts := n, deadline := some 1000, followOn := false,
    limited := false, renewal := false }

def commanded (c : Cmd) (valve : ValveState) : State :=
  withZone { zone0 with valve := valve, cmd := some c } running

theorem witness_ackDeadline :
    ((commanded (closeCmd 3) .closing).works.zone 2).cmd = some (closeCmd 3)
      ∧ ((commanded (closeCmd 3) .closing).works.cfg 2).valveNode = some node
      ∧ (closeCmd 3).attempts < (commanded (closeCmd 3) .closing).works.site.attempts
      ∧ (commanded (closeCmd 4) .closing).works.site.attempts ≤ (closeCmd 4).attempts
      ∧ (commanded (closeCmd 3) .closing).works.urgent.length < 8 := by decide

theorem test_ackDeadline :
    ((did (.ackDeadline 2) (commanded (closeCmd 3) .closing)).works.zone 2).cmd
        = some { closeCmd 4 with deadline := some 1005 }
      ∧ ((did (.ackDeadline 2) (commanded (closeCmd 4) .closing)).works.zone 2).valve
        = .stuck := by decide +kernel

def acked (number : Byte) (c : Cmd) (valve : ValveState) : State :=
  { commanded c valve with vcuQueue := [handed 0x08 [number, 1] (.roster 3 .active)] }

def renewal : Cmd := { closeCmd 1 with kind := .openValve, renewal := true }

/-- An OPEN of zone 2 in slot i, tried n times. -/
def openCmd (n : Nat) (limited : Bool) : Cmd :=
  { closeCmd n with kind := .openValve, limited := limited }

def opening (i : SlotIx) (c : Cmd) (result : Byte) : State :=
  { withRun i (run1 .opening [{ entry2 .opening with target := if i = 0 then none else some 50 }])
      (withZone { zone0 with
        valve := .opening, cmd := some c, runSlot := some i,
        frost := if i = 0 then .warning else .clear } running) with
    vcuQueue := [handed 0x08 [6, result] (.roster 3 .active)] }

theorem witness_opens (i : SlotIx) (c : Cmd) (b : Byte) (hi : i = 0 ∨ i = 11) :
    (opening i c b).Opens 2 i
      (run1 .opening [{ entry2 .opening with target := if i = 0 then none else some 50 }])
      { entry2 .opening with target := if i = 0 then none else some 50 } := by
  rcases hi with rfl | rfl <;> exact ⟨⟨⟨rfl, rfl⟩, rfl⟩, by rfl, rfl, by decide, rfl⟩

theorem witness_openDeadline :
    ((opening 11 (openCmd 3 false) 1).works.zone 2).cmd = some (openCmd 3 false)
      ∧ (openCmd 3 false).deadline = some 1000
      ∧ ((opening 11 (openCmd 3 false) 1).works.cfg 2).valveNode = some node
      ∧ (openCmd 3 false).attempts < (opening 11 (openCmd 3 false) 1).works.site.attempts
      ∧ (opening 11 (openCmd 4 false) 1).works.site.attempts ≤ (openCmd 4 false).attempts
      ∧ (opening 11 (openCmd 3 false) 1).works.command.length ≤ 14
      ∧ { renewal with attempts := 4 }.renewal = true := by decide +kernel

/-- 50 litres at 100 a minute are 30 seconds, and 600 more. -/
theorem test_openDeadline :
    sentCommand (did (.ackDeadline 2) (opening 11 (openCmd 3 false) 1)) = some (0x07, [1, 6, 2, 0x76])
      ∧ ((did (.ackDeadline 2) (opening 11 (openCmd 4 false) 1)).works.zone 2).valve = .closing
      ∧ ((did (.ackDeadline 2) (opening 0 (openCmd 4 false) 1)).works.zone 2).frost = .unprotected
      ∧ said (did (.ackDeadline 2) (commanded { renewal with attempts := 4 } .opened))
        = some ([13, 0, 0, 3, 0xE8, 2, 0] ++ [2, 2]) := by decide +kernel

/-- A CLOSE with its follow-on set, for the frost entry that waits for it. -/
def following (capacity : Nat) : State :=
  { State.withWorks (opening 0 { closeCmd 1 with followOn := true } 1) fun w =>
      { w with
        zones := w.zones.set 2 { (opening 0 (closeCmd 1) 1).works.zone 2 with
          valve := .closing, cmd := some { closeCmd 1 with followOn := true } },
        tables := { w.tables with site := { w.tables.site with capacity := capacity } } } with
    vcuQueue := [handed 0x08 [6, 1] (.roster 3 .active)] }

theorem witness_followOn :
    (following 100).works.frostOpening 2 = true ∧ (following 100).works.nodeReady node = true
      ∧ (following 100).works.demandOf 2 ≤ ((following 100).works.setValve 2 .closed).freeCapacity
      ∧ ((following 99).works.setValve 2 .closed).freeCapacity < (following 99).works.demandOf 2
      ∧ ((following 100).works.zone 2).cmd = some { closeCmd 1 with followOn := true }
      ∧ (following 100).works.frostRun?.isSome = true := by decide +kernel

theorem test_ackOutcomes :
    ((did .valveAck (opening 11 (openCmd 1 false) 1)).works.run 11).map (fun r =>
        (r.state, r.entries.map fun e => (e.openSince, e.completion)))
        = some (.flowing, [(some 1000, some 1030)])
      ∧ ((did .valveAck (opening 0 (openCmd 1 true) 1)).works.zone 2).frost = .protecting
      ∧ ((did .valveAck (opening 0 (openCmd 1 true) 1)).works.zone 2).cmd.map Cmd.renewal = some true
      ∧ ((did .valveAck (opening 11 (openCmd 1 false) 3)).works.run 11).map (fun r =>
        (r.state, r.entries.map fun e => (e.state, e.faultReason)))
        = some (.faulted, [(.faulted, some .fault)])
      ∧ ((did .valveAck (following 100)).works.zone 2).valve = .opening
      ∧ ((did .valveAck (following 99)).works.zone 2).valve = .closed := by decide +kernel

theorem witness_valveAck :
    fieldFrame? (handed 0x08 [6, 1] (.roster 3 .active)).frame
        = some { auxFields with kind := 0x08, payload := [6, 1] }
      ∧ (acked 6 (closeCmd 1) .closing).works.valveZone? node = some 2
      ∧ ((acked 6 (closeCmd 1) .closing).works.zone 2).cmd = some (closeCmd 1)
      ∧ ((acked 6 renewal .opened).works.zone 2).cmd = some renewal
      ∧ (closeCmd 1).number = 6 := by decide +kernel

theorem test_valveAck :
    ((did .valveAck (acked 6 (closeCmd 1) .closing)).works.zone 2).valve = .closed
      ∧ ((did .valveAck (acked 5 (closeCmd 1) .closing)).works.zone 2).valve = .closing
      ∧ ((did .valveAck (acked 6 renewal .opened)).works.zone 2).cmd = none := by decide +kernel

def lined (l : Line) : State := State.withWorks running fun w => { w with line := l }

def resting : Line := { Line.atRest with waiting := [] }

def pulsing (o : Output) (on : Bool) (ph : Phase) : Pulse :=
  { output := o, on := on, lengths := .default, phase := ph, passed := false }

theorem witness_drain :
    (lined { resting with drainDeadline := some 1000, pulse := some (pulsing .drain true .gap) }
      ).works.line.pulse = some (pulsing .drain true .gap)
      ∧ (lined { resting with drainDeadline := some 1000 }).works.line.pulse = none
      ∧ (lined { resting with drainDeadline := some 1000 }).works.line.waiting = []
      ∧ running.works.time = 1000 := by decide

theorem test_drain :
    (did .drainDeadline (lined { resting with drainDeadline := some 1000 })).works.line.pulse
        = some (pulsing .drain false .lead)
      ∧ (did .drainDeadline (lined { resting with drainDeadline := some 1001 })).works.line.drainDeadline
        = some 1001 := by decide +kernel

/-- PulseLeadAndDrive: each phase, and a pulse a reset has passed over. -/
theorem witness_phases :
    (pulsing .pump true .lead).phase = .lead
      ∧ (pulsing .pump true .drive).passed = false
      ∧ ({ pulsing .pump true .drive with passed := true } : Pulse).passed = true
      ∧ (lined { resting with pulse := some (pulsing .pump true .lead) }).works.line.pulse
        = some (pulsing .pump true .lead) := by decide

theorem test_phases :
    (did .pulseLeadEnd (lined { resting with pulse := some (pulsing .pump true .lead) })).pins.pumpOn
        = true
      ∧ (did .pulseDriveEnd (lined { resting with
          pulse := some (pulsing .pump true .drive) })).works.line.pumpOn = true
      ∧ (did .pulseDriveEnd (lined { resting with
          pulse := some (pulsing .pump true .drive) })).pins.pumpOn = false := by decide +kernel

/-- PulseEndAndGap: the four ends that move the main line, and both ways out of the gap. -/
theorem witness_pulseEnd :
    (lined { resting with state := .stopping, pulse := some (pulsing .master false .tail) }
      ).works.line.frostFlowed = false
      ∧ (lined { resting with state := .draining }).works.line.demand = false
      ∧ (lined { resting with state := .ready, demand := true }).works.line.demand = true
      ∧ (unconfirmed 11).works.run 11 ≠ none
      ∧ (lined { resting with waiting := [{ output := .drain, on := true }] }).works.line.waiting
        = [{ output := .drain, on := true }] := by decide +kernel

def ending (state : LineState) (demand : Bool) (p : Pulse) (waiting : List PulseRequest) : State :=
  lined { resting with state := state, demand := demand, pulse := some p, waiting := waiting }

theorem test_pulseEnd :
    (did .pulseEnd (ending .priming true (pulsing .master true .tail) [])).works.line.state = .ready
      ∧ (did .pulseEnd (ending .stopping false (pulsing .master false .tail) [])).works.line.state
        = .idle := by decide +kernel

theorem test_pulseGap :
    (did .pulseGapEnd (ending .idle false (pulsing .pump true .gap) [{ output := .drain, on := true }])
      ).works.line.pulse = some (pulsing .drain true .lead)
      ∧ (did .pulseGapEnd (ending .idle false (pulsing .pump true .gap) [])).works.line.pulse
        = none := by decide +kernel

/-- The frame statements: each command answers a next state. -/
theorem witness_frames :
    (∃ t, exec (.thawDeadline 2) thawing = .next t) ∧ (∃ t, exec (.ackDeadline 2) running = .next t)
      ∧ (∃ t, exec .join running = .next t) ∧ ∃ t, exec .valveAck running = .next t :=
  ⟨⟨_, rfl⟩, ⟨_, rfl⟩, ⟨_, rfl⟩, _, rfl⟩

/-! ### Requests -/

/-- RepliesLeaveByTheirPort: COMMAND with its last slot free, and full. -/
theorem witness_replies :
    (waitingTx [] (List.replicate 15 []) []).works.command.length < 16
      ∧ 16 ≤ (waitingTx [] (List.replicate 16 []) []).works.command.length := by decide

/-- A request of the host has the authority it needs. -/
theorem asks_host {code : Byte} {args : Bytes} {s : State} {may : Bool}
    (h : (asked code args s).nextRequest .uplink = some (taken code args)) :
    (asked code args s).Asks .uplink (taken code args) code args may :=
  ⟨h, rfl, rfl, .inl rfl⟩

theorem asks_field {code : Byte} {args : Bytes} {s : State}
    (h : (radioed code args s).nextRequest .field = some (takenRadio code args)) :
    (radioed code args s).Asks .field (takenRadio code args) code args true :=
  ⟨h, rfl, rfl, .inr ⟨rfl, rfl⟩⟩

theorem witness_reads :
    (asked 0x01 [] running).Asks .uplink (taken 0x01 []) 0x01 [] true
      ∧ (radioed 0x01 [] running).Asks .field (takenRadio 0x01 []) 0x01 [] true
      ∧ (asked 0x0A [255] running).Asks .uplink (taken 0x0A [255]) 0x0A [255] true
      ∧ (radioed 0x0B [0, 1, 1] running).Asks .field (takenRadio 0x0B [0, 1, 1]) 0x0B [0, 1, 1] true
      ∧ (asked 0x0D [39] running).Asks .uplink (taken 0x0D [39]) 0x0D [39] true
      ∧ (asked 0x0D [40] running).Asks .uplink (taken 0x0D [40]) 0x0D [40] true
      ∧ (asked 0x12 [1, 39] running).Asks .uplink (taken 0x12 [1, 39]) 0x12 [1, 39] true
      ∧ (asked 0x12 [0, 0] running).Asks .uplink (taken 0x12 [0, 0]) 0x12 [0, 0] true :=
  ⟨asks_host (by decide +kernel), asks_field (by decide +kernel), asks_host (by decide +kernel),
    asks_field (by decide +kernel), asks_host (by decide +kernel), asks_host (by decide +kernel),
    asks_host (by decide +kernel), asks_host (by decide +kernel)⟩

theorem witness_readsMore :
    (asked 0x11 [11, 39] (unconfirmed 11)).Asks .uplink (taken 0x11 [11, 39]) 0x11 [11, 39] true
      ∧ (asked 0x09 [0x04, 39] running).Asks .uplink (taken 0x09 [0x04, 39]) 0x09 [0x04, 39] true
      ∧ (running.activeItems 0x04 39).isSome = true
      ∧ (asked 0x06 [TableName.site.code, 0] running).Asks .uplink
          (taken 0x06 [TableName.site.code, 0]) 0x06 [TableName.site.code, 0] false
      ∧ (running.bank.rowItems .site 0).isSome = true
      ∧ running.windows[1].isOpen = false ∧ running.windows[0].isOpen = true :=
  ⟨asks_host (by decide +kernel), asks_host (by decide +kernel), by decide, asks_host (by decide +kernel),
    by decide, by decide, by decide⟩

theorem witness_readsRefused :
    (asked 0x11 [12, 0] running).Asks .uplink (taken 0x11 [12, 0]) 0x11 [12, 0] true
      ∧ (asked 0x11 [11, 40] running).Asks .uplink (taken 0x11 [11, 40]) 0x11 [11, 40] true
      ∧ (asked 0x11 [11, 39] running).Asks .uplink (taken 0x11 [11, 39]) 0x11 [11, 39] true
      ∧ (asked 0x12 [2, 0] running).Asks .uplink (taken 0x12 [2, 0]) 0x12 [2, 0] true
      ∧ (asked 0x12 [1, 40] running).Asks .uplink (taken 0x12 [1, 40]) 0x12 [1, 40] true
      ∧ (asked 0x09 [TableName.role.code, 4] running).Asks .uplink
          (taken 0x09 [TableName.role.code, 4]) 0x09 [TableName.role.code, 4] true
      ∧ running.works.run 11 = none ∧ (running.activeItems TableName.role.code 4) = none :=
  ⟨asks_host (by decide +kernel), asks_host (by decide +kernel), asks_host (by decide +kernel),
    asks_host (by decide +kernel), asks_host (by decide +kernel), asks_host (by decide +kernel),
    by decide, by decide⟩

theorem test_timeRead :
    said (did (.timeRead .uplink) (asked 0x01 [] running)) = some [0x01, 0x00, 0, 0, 3, 0xE8]
      ∧ sentCommand (did (.timeRead .field) (radioed 0x01 [] running))
        = some (0x0B, [7, 0x01, 0x00, 0, 0, 3, 0xE8]) := by decide +kernel

theorem test_nodeReads :
    said (did (.nodeProbe .uplink) (asked 0x0B [0, 1, 1] sensing))
        = some [0x0B, 0x00, 2, 3, 3, 0xFF, 0, 5]
      ∧ (said (did (.nodeRead .uplink) (asked 0x0A [3] sensing))).map (fun b => b.take 7)
        = some [0x0A, 0x00, 0, 1, 1, 0, 3] := by decide +kernel

theorem test_zoneRead :
    said (did (.zoneRead .uplink) (asked 0x0D [40] running)) = some [0x0D, 0x03]
      ∧ (said (did (.zoneRead .uplink) (asked 0x0D [39] running))).map (fun b => b.take 2)
        = some [0x0D, 0x00] := by decide +kernel

theorem test_runRead :
    said (did (.runRead .uplink) (asked 0x11 [11, 1] (unconfirmed 11))) = some
      ([0x11, 0x00, 11, 0, 9, 0, 0, 3] ++ [0, 0, 0, 50] ++ [0, 0, 0, 0, 0] ++ [1, 0, 0, 3, 0xE8]
        ++ [0, 0] ++ [1] ++ [0, 0, 0, 100] ++ [0]) := by decide +kernel

theorem test_windowRead :
    said (did (.windowRead .uplink) (asked 0x12 [0, 0] running)) = some [0x12, 0x04]
      ∧ (said (did (.windowRead .uplink) (asked 0x12 [1, 39] running))).map (fun b => b.take 4)
        = some [0x12, 0x00, 1, 1] := by decide +kernel

theorem test_tableReads :
    said (did (.tableRead .uplink) (asked 0x09 [TableName.role.code, 4] running)) = some [0x09, 0x03]
      ∧ said (did (.stageRead .uplink) (asked 0x06 [TableName.role.code, 0] running))
        = some [0x06, 0x00, 0, 60, 3, 0x84, 12, 1] := by decide +kernel

theorem witness_timeStartReset :
    (asked 0x02 [0, 0, 0, 9] State.reset).Asks .uplink (taken 0x02 [0, 0, 0, 9]) 0x02 [0, 0, 0, 9] false
      ∧ (asked 0x03 [] State.reset).Asks .uplink (taken 0x03 []) 0x03 [] false
      ∧ (asked 0x04 [] running).Asks .uplink (taken 0x04 []) 0x04 [] false
      ∧ (asked 0x02 [0, 0, 0, 9] State.reset).works.device = .halted
      ∧ (asked 0x03 [] running).works.device = .running ∧ leaving.resetAnswered = true
      ∧ (asked 0x03 [] State.reset).works.urgent.length < 8 :=
  ⟨asks_host (by decide +kernel), asks_host (by decide +kernel), asks_host (by decide +kernel), rfl, rfl,
    rfl, by decide⟩

theorem test_timeSet :
    (did (.timeSet .uplink) (asked 0x02 [0, 0, 0, 9] { flying with
        works := { flying.works with device := .halted, time := 998 } })).inFlight
        = some { frame := [1], expiry := 11 }
      ∧ said (did (.timeSet .uplink) (asked 0x02 [0, 0, 0, 9] running)) = some [0x02, 0x04] := by
  decide +kernel

theorem test_start :
    (did (.start .uplink) (asked 0x03 [] State.reset)).windows[0].closeDeadline = some 900
      ∧ sentUrgent (did (.start .uplink) (asked 0x03 [] State.reset)) = some (0x07, [2, 0, 0, 0]) := by
  decide +kernel

theorem test_reset :
    said (did (.reset .uplink) (asked 0x04 [] running)) = some [0x04, 0x00]
      ∧ (did (.reset .uplink) (asked 0x04 [] running)).resetAnswered = true := by decide +kernel

/-- A role row: interval 60 to 61, chatter 0, allowed. -/
def roleRow : Bytes := [0, 60, 0, 61, 0, 1]

theorem witness_stageWrite :
    (asked 0x05 (TableName.role.code :: 3 :: roleRow) running).Asks .uplink
        (taken 0x05 (TableName.role.code :: 3 :: roleRow)) 0x05 (TableName.role.code :: 3 :: roleRow) false
      ∧ roleRow.length = TableName.role.rowBytes ∧ TableName.role.rows = 4
      ∧ (running.bank.putRow .role 3 roleRow).isSome = true ∧ running.commitPending = false
      ∧ closing.commitPending = true :=
  ⟨asks_host (by decide +kernel), by decide, by decide, by decide, rfl, rfl⟩

theorem test_stageWrite :
    (did (.stageWrite .uplink) (asked 0x05 (TableName.role.code :: 3 :: roleRow) running)).bank.roles[3]
        = { minInterval := 60, maxInterval := 61, chatter := 0, allowed := true }
      ∧ said (did (.stageWrite .uplink) (asked 0x05 (TableName.role.code :: 4 :: roleRow) running))
        = some [0x05, 0x03] := by decide +kernel

/-- A bank that fails on the controller id. -/
def badBank : Tables :=
  { Tables.default with site := { Tables.default.site with controller := 0 } }

theorem witness_commit :
    (asked 0x07 [] State.reset).Asks .uplink (taken 0x07 []) 0x07 [] false
      ∧ (asked 0x08 [] closing).Asks .uplink (taken 0x08 []) 0x08 [] false
      ∧ (asked 0x07 [] State.reset).works.validate (asked 0x07 [] State.reset).bank = none
      ∧ State.reset.works.validate badBank = some { reason := .identity, table := .site, row := 0 }
      ∧ (asked 0x07 [] State.reset).commitPending = false ∧ (asked 0x08 [] closing).commitPending = true :=
  ⟨asks_host (by decide +kernel), asks_host (by decide +kernel), by decide +kernel, by decide +kernel,
    rfl, rfl⟩

theorem test_commit :
    said (did (.stageCommit .uplink) (asked 0x07 [] State.reset)) = some [0x07, 0x00, 0]
      ∧ said (did (.stageCommit .uplink) (asked 0x07 [] running)) = some [0x07, 0x00, 2]
      ∧ said (did (.stageDiscard .uplink) (asked 0x08 [] closing)) = some [0x08, 0x00, 1] := by
  decide +kernel

theorem witness_nodeWrites :
    (asked 0x0C [3, 0, 5, 0x01, 2] sensing).Asks .uplink (taken 0x0C [3, 0, 5, 0x01, 2]) 0x0C
        [3, 0, 5, 0x01, 2] false
      ∧ (asked 0x0C [3, 0, 5, 0x02] sensing).Asks .uplink (taken 0x0C [3, 0, 5, 0x02]) 0x0C
        [3, 0, 5, 0x02] false
      ∧ (asked 0x0C [3, 0, 5, 0x03] (quiet .muted 0)).Asks .uplink (taken 0x0C [3, 0, 5, 0x03]) 0x0C
        [3, 0, 5, 0x03] false
      ∧ (asked 0x0C [255, 0, 0, 0x00, 0, 2, 2, 1, 0xFF] running).Asks .uplink
        (taken 0x0C [255, 0, 0, 0x00, 0, 2, 2, 1, 0xFF]) 0x0C [255, 0, 0, 0x00, 0, 2, 2, 1, 0xFF] false :=
  ⟨asks_host (by decide +kernel), asks_host (by decide +kernel), asks_host (by decide +kernel),
    asks_host (by decide +kernel)⟩

theorem witness_reserveStale :
    (asked 0x0C [255, 0, 1, 0x00, 0, 2, 2, 1, 0xFF] running).Asks .uplink
        (taken 0x0C [255, 0, 1, 0x00, 0, 2, 2, 1, 0xFF]) 0x0C
        ([byte 255, 0, 1, 0x00] ++ [0, 2, 2, 1, 0xFF]) false
      ∧ (running.works.entry 255).gen ≠ word16 0 1 :=
  ⟨asks_host (by decide +kernel), by decide⟩

theorem witness_nodeWrites_state :
    (sensing.works.entry 3).gen = word16 0 5 ∧ (sensing.works.entry 3).gen ≠ word16 0 4
      ∧ State.zoneArg? 39 = some (some 39) ∧ State.zoneArg? 0xFF = some none
      ∧ (sensing.works.entry 3).zone ≠ some 39 ∧ (sensing.works.entry 3).state ≠ .free
      ∧ ((quiet .muted 0).works.entry 3).state = .muted
      ∧ 0 < ((quiet .muted 0).works.entry 3).interval ∧ (quiet .muted 0).works.time < 0xFFFFFFFF
      ∧ (running.works.entry 255).state = .free ∧ running.works.sourceValid (nodeId 0 2 2) = true
      ∧ running.works.idTaken (nodeId 0 2 2) = false
      ∧ ∀ k : Fin 4, WinRow.covers running.works.tables.windows[k] (nodeId 0 2 2) = false := by
  decide +kernel

theorem test_nodeWrites :
    ((did (.assign .uplink) (asked 0x0C [3, 0, 5, 0x01, 2] sensing)).works.entry 3).zone = some 2
      ∧ said (did (.assign .uplink) (asked 0x0C [3, 0, 4, 0x01, 2] sensing)) = some [0x0C, 0x02, 0, 5]
      ∧ ((did (.release .uplink) (asked 0x0C [3, 0, 5, 0x02] sensing)).works.entry 3) = Entry.free 6
      ∧ ((did (.restore .uplink) (asked 0x0C [3, 0, 5, 0x03] (quiet .muted 0))).works.entry 3).state
        = .active := by decide +kernel

theorem test_reserve :
    (did (.reserve .uplink) (asked 0x0C [255, 0, 0, 0x00, 0, 2, 2, 1, 0xFF] running)).works.entry 255
      = { Entry.free 1 with id := 0x000202, role := .valve, state := .reserved }
      ∧ said (did (.reserve .uplink) (asked 0x0C [255, 0, 1, 0x00, 0, 2, 2, 1, 0xFF] running))
        = some [0x0C, 0x02, 0, 0] := by decide +kernel

theorem witness_zoneControls :
    (asked 0x0E [2, 0, 8, 0x00, 1, 2] (withZone zone0 running)).Asks .uplink
        (taken 0x0E [2, 0, 8, 0x00, 1, 2]) 0x0E [2, 0, 8, 0x00, 1, 2] false
      ∧ (asked 0x0E [2, 0, 8, 0x01] (withZone { zone0 with valve := .stuck } running)).Asks .uplink
        (taken 0x0E [2, 0, 8, 0x01]) 0x0E [2, 0, 8, 0x01] false
      ∧ ((withZone zone0 running).works.zone 2).gen = word16 0 8
      ∧ ((withZone zone0 running).works.zone 2).gen ≠ word16 0 7
      ∧ ((withZone zone0 running).works.zone 2).frost = .clear
      ∧ (withZone zone0 running).works.touched = []
      ∧ ((withZone { zone0 with valve := .stuck } running).works.zone 2).valve = .stuck :=
  ⟨asks_host (by decide +kernel), asks_host (by decide +kernel), by decide, by decide, rfl, rfl, rfl⟩

theorem test_zoneControls :
    ((did (.zoneControlIfSet .uplink) (asked 0x0E [2, 0, 8, 0x00, 1, 2]
        (withZone zone0 running))).works.zone 2) = { zone0 with auto := true, gen := 9 }
      ∧ said (did (.zoneControlIfSet .uplink) (asked 0x0E [2, 0, 8, 0x00, 3, 2]
        (withZone zone0 running))) = some [0x0E, 0x03] := by decide +kernel

theorem test_clearValve :
    ((did (.clearValve .uplink) (asked 0x0E [2, 0, 8, 0x01]
        (withZone { zone0 with valve := .stuck } running))).works.zone 2).valve = .closed
      ∧ said (did (.clearValve .uplink) (asked 0x0E [2, 0, 8, 0x01] (withZone zone0 running)))
        = some [0x0E, 0x07] := by decide +kernel

theorem test_valveDetails :
    let w := (opening 11 (openCmd 3 false) 1).works
    w.clearDetail 2 .reading = [2] ++ beId node ++ [0] ∧ w.clearDetail 2 .request = [1]
      ∧ w.clearDetail 2 .restart = [2]
      ∧ w.faultDetail 2 (.closeFailed .noAck 6) = [2] ++ beId node ++ [0, 2, 6]
      ∧ w.faultDetail 2 .unexpectedOpen = [2] ++ beId node ++ [1]
      ∧ w.faultDetail 2 (.renew .fault) = [2, 1] := by decide +kernel

theorem witness_runRequests :
    (asked 0x0F [2, 0, 50] (withZone zone0 running)).Asks .uplink (taken 0x0F [2, 0, 50]) 0x0F [2, 0, 50]
        true
      ∧ runItems? [2, 0, 50] = some [(2, 50)] ∧ State.runZones? [(2, 50)] = some [(2, 50)]
      ∧ (asked 0x10 [11, 0, 9] (withRun 11 (run1 .queued [entry2 .waiting]) running)).Asks .uplink
        (taken 0x10 [11, 0, 9]) 0x10 [11, 0, 9] true
      ∧ (run1 .queued []).number = word16 0 9
      ∧ (withZone zone0 running).works.demandSum [2] ≤ (withZone zone0 running).works.site.capacity
      ∧ (withZone zone0 running).works.newSlot? = some 1 :=
  ⟨asks_host (by decide +kernel), by decide, by decide, asks_host (by decide +kernel), by decide, by decide,
    by decide⟩

theorem witness_runZonesChecked :
    State.checkRunZones (withZone zone0 running).works [(2, 50)] = .ok [(2, 50)] := by rfl

theorem test_runOpen :
    said (did (.runOpen .uplink) (asked 0x0F [2, 0, 50] (withZone zone0 running)))
        = some [0x0F, 0x00, 1, 0, 1]
      ∧ said (did (.runOpen .uplink) (asked 0x0F [2, 0, 50] State.reset)) = some [0x0F, 0x04] := by
  decide +kernel

theorem test_runCancel :
    ((did (.runCancel .uplink) (asked 0x10 [11, 0, 9]
        (withRun 11 (run1 .queued [entry2 .waiting]) running))).works.run 11).map Run.state
        = some .cancelled
      ∧ said (did (.runCancel .uplink) (asked 0x10 [0, 0, 9] running)) = some [0x10, 0x09] := by
  decide +kernel

/-- A VALVE_CMD for zone 2's node, and the test node's READING. -/
def valveFrame : Bytes := sealFrame (fieldBody 0x07 node 0x0000FE 1 [1, 0, 0, 0])

theorem witness_passSend :
    (asked 0x13 auxFrame running).Asks .uplink (taken 0x13 auxFrame) 0x13 auxFrame false
      ∧ fieldLengthGood [0, 11] = false ∧ fieldLengthGood auxFrame = true
      ∧ (fieldFrame? valveFrame).map (State.movesValve (withZone zone0 running).works) = some true
      ∧ (fieldFrame? auxFrame).map (State.movesValve running.works) = some false
      ∧ (waitingTx [] [] (List.replicate 15 [])).works.pass.length < 16
      ∧ 16 ≤ (waitingTx [] [] (List.replicate 16 [])).works.pass.length :=
  ⟨asks_host (by decide +kernel), by decide, by decide +kernel, by decide +kernel, by decide +kernel,
    by decide, by decide⟩

theorem test_passSend :
    (did (.passSend .uplink) (asked 0x13 auxFrame running)).works.pass = [auxFrame]
      ∧ said (did (.passSend .uplink) (asked 0x13 valveFrame (withZone zone0 running)))
        = some [0x13, 0x07] := by decide +kernel

theorem witness_deviceRequests :
    (asked 0x14 [3, 7, 0, 0, 0, 0] running).Asks .uplink (taken 0x14 [3, 7, 0, 0, 0, 0]) 0x14
        [3, 7, 0, 0, 0, 0] false
      ∧ (asked 0x14 [4, 7, 0, 0, 0, 0] running).Asks .uplink (taken 0x14 [4, 7, 0, 0, 0, 0]) 0x14
        [4, 7, 0, 0, 0, 0] false
      ∧ (asked 0x15 [3] running).Asks .uplink (taken 0x15 [3]) 0x15 [3] false
      ∧ (asked 0x16 [1, 18] running).Asks .uplink (taken 0x16 [1, 18]) 0x16 [1, 18] false
      ∧ (asked 0x16 [19] running).Asks .uplink (taken 0x16 [19]) 0x16 [19] false
      ∧ (asked 0x17 [] running).Asks .uplink (taken 0x17 []) 0x17 [] false :=
  ⟨asks_host (by decide +kernel), asks_host (by decide +kernel), asks_host (by decide +kernel),
    asks_host (by decide +kernel), asks_host (by decide +kernel), asks_host (by decide +kernel)⟩

theorem test_watch :
    (did (.watchSet .uplink) (asked 0x14 [3, 7, 0, 0, 0, 0] running)).watch[3]
        = { armed := true, id := none, kind := none, oneShot := true, hits := 0 }
      ∧ (did (.watchClear .uplink) (asked 0x15 [1] watching)).watch[1] = WatchPoint.cleared := by
  decide +kernel

theorem test_noticeMask :
    (did (.noticeMask .uplink) (asked 0x16 [1, 18] running)).works.mask[17] = true
      ∧ (did (.noticeMask .uplink) (asked 0x16 [1, 18] running)).works.mask[1] = false
      ∧ said (did (.noticeMask .uplink) (asked 0x16 [19] running)) = some [0x16, 0x03] := by
  decide +kernel

theorem test_statusRead :
    (said (did (.statusRead .uplink) (asked 0x17 [] (State.withWorks running fun w =>
        { w with latches := { w.latches with stray := true }, fieldErrors := 258 })))).map
        (fun b => b.take 15) = some [0x17, 0, 0, 0, 0, 0, 0, 0, 0, 0, 0, 1, 0, 1, 2]
      ∧ (did (.statusRead .uplink) (asked 0x17 [] (State.withWorks running fun w =>
        { w with fieldErrors := 258 }))).works.fieldErrors = 0 := by decide +kernel

/-- PUMP ON is on/off, 01h; MASTER OPEN and DRAIN CLOSED are 0 and 1 in the order of R165. -/
theorem test_statusRead_positions :
    (said (did (.statusRead .uplink) (asked 0x17 [] (State.withWorks running fun w =>
        { w with line := { w.line with pumpOn := true, masterOpen := true } })))).map
        (fun b => (b.drop 24).take 3) = some [1, 0, 1] := by decide +kernel

/-- RequestsJudgedBeforeTheirRule: the codes on both sides of those that are known, a wrong length, a
handheld's START and its cancel of slot 0, and a sender that is no handheld. -/
theorem witness_judged :
    (asked 0x00 [] running).nextRequest .uplink = some (taken 0x00 [])
      ∧ (asked 0x18 [] running).nextRequest .uplink = some (taken 0x18 [])
      ∧ (asked 0x01 [1] running).nextRequest .uplink = some (taken 0x01 [1])
      ∧ (radioed 0x03 [] running).nextRequest .field = some (takenRadio 0x03 [])
      ∧ (radioed 0x10 [0, 0, 9] running).nextRequest .field = some (takenRadio 0x10 [0, 0, 9])
      ∧ ({ running with mguQueue := [handed 0x0A [1] (.roster 3 .active)] } : State).nextRequest .field
        = some { takenRadio 0x01 [] with role := none } := by decide +kernel

theorem test_malformed :
    said (did (.malformedRequest .uplink) (asked 0x18 [] running)) = some [0x18, 0x0B]
      ∧ said (did (.timeRead .uplink) (asked 0x01 [1] running)) = some [0x01, 0x0B]
      ∧ sentCommand (did (.start .field) (radioed 0x03 [] running)) = some (0x0B, [7, 0x03, 0x01]) := by
  decide +kernel

end Sys2Proof.Tests
end

