-- ==== Sys2Proof/Proofs/WindowFold.lean ====
section
/-! PROOF. What the fold of a closed window does to one zone (R89, R90): the turns of the other zones
leave it alone, so it comes out as its own turn leaves it. -/

namespace Sys2Proof.Machine

/-- A window with samples folds their mean, truncated toward zero (R90). -/
theorem Zone.fold_of_samples (x : Zone) (a : Acc) (r : FoldRow) (h : 0 < a.count) :
    x.fold a r = x.folded (a.sum.tdiv a.count) r.weight := if_pos h

namespace Works

/-- One zone's turn in the fold of a window (R89). -/
def foldTurn (acc : Vector Acc 40) (record : Vector FoldRow 40) (w : Works) (z : ZoneIx) : Works :=
  if record[z].inUse && (w.cfg z).inUse then w.modZone z fun x => x.fold acc[z] record[z] else w

theorem foldWindow_eq_foldTurns (w : Works) (acc : Vector Acc 40) (record : Vector FoldRow 40) :
    w.foldWindow acc record = allZones.foldl (foldTurn acc record) w := rfl

section Turns

variable (acc : Vector Acc 40) (record : Vector FoldRow 40)

@[simp] theorem cfg_foldTurn (w : Works) (x z : ZoneIx) :
    (foldTurn acc record w x).cfg z = w.cfg z := by
  unfold foldTurn
  split <;> rfl

theorem zone_foldTurn_self (w : Works) (z : ZoneIx) :
    (foldTurn acc record w z).zone z =
      if record[z].inUse && (w.cfg z).inUse then (w.zone z).fold acc[z] record[z] else w.zone z := by
  unfold foldTurn
  split
  · exact zone_modZone_self ..
  · rfl

theorem zone_foldTurn_other (w : Works) {x z : ZoneIx} (h : z ≠ x) :
    (foldTurn acc record w x).zone z = w.zone z := by
  unfold foldTurn
  split
  · rw [zone_modZone, if_neg h]
  · rfl

theorem zone_foldTurns_of_not_mem {l : List ZoneIx} {z : ZoneIx} (hz : z ∉ l) (w : Works) :
    (l.foldl (foldTurn acc record) w).zone z = w.zone z := by
  induction l generalizing w with
  | nil => rfl
  | cons x xs ih =>
    obtain ⟨hx, hxs⟩ := not_or.mp (mt List.mem_cons.mpr hz)
    exact (ih hxs _).trans (zone_foldTurn_other acc record w hx)

/-- A zone that has one turn: the turns before it change neither the zone nor its configuration, and the
turns after it leave the zone as its own turn made it. -/
theorem zone_foldTurns_of_mem {l : List ZoneIx} {z : ZoneIx} (hl : l.Nodup) (hz : z ∈ l) (w : Works) :
    (l.foldl (foldTurn acc record) w).zone z = (foldTurn acc record w z).zone z := by
  induction l generalizing w with
  | nil => exact absurd hz List.not_mem_nil
  | cons x xs ih =>
    obtain ⟨hx, hxs⟩ := List.nodup_cons.mp hl
    rw [List.foldl_cons]
    by_cases h : z = x
    · subst h
      exact zone_foldTurns_of_not_mem acc record hx _
    · have hmem : z ∈ xs := (List.mem_cons.mp hz).resolve_left h
      rw [ih hxs hmem, zone_foldTurn_self, zone_foldTurn_self, cfg_foldTurn,
        zone_foldTurn_other acc record w h]

/-- The zone folds by its own accumulator and row when it is in use in the record and now, and is not
touched otherwise (R89). -/
theorem zone_foldWindow (w : Works) (z : ZoneIx) :
    (w.foldWindow acc record).zone z =
      if record[z].inUse && (w.cfg z).inUse then (w.zone z).fold acc[z] record[z] else w.zone z := by
  rw [foldWindow_eq_foldTurns, zone_foldTurns_of_mem acc record allZones_nodup (mem_allZones z),
    zone_foldTurn_self]

end Turns

end Works

/-- Settles O33: the zone's fold is that of its own row, and with samples it is the estimate of R90, by
whether the zone had an estimate before. -/
theorem foldWithSamples : Obligations.FoldWithSamples := by
  intro w acc record z hrecord hnow hcount
  have hfolded : (w.foldWindow acc record).zone z =
      (w.zone z).folded (acc[z].sum.tdiv acc[z].count) record[z].weight := by
    rw [Works.zone_foldWindow, hrecord, hnow, Bool.and_self, if_pos rfl,
      Zone.fold_of_samples _ _ _ hcount]
  rw [hfolded, Zone.folded]
  cases (w.zone z).estimate with
  | none => rfl
  | some e => rfl

end Sys2Proof.Machine
end

