-- ==== Sys2Proof/Proofs/UnprotectedEvaluation.lean ====
section
/-! PROOF. An evaluation in UNPROTECTED (R110).  A change of frost state works through the zone's record,
the ALERT pin and a notice, and none of these touches a run, so settling a zone places it in none. -/

namespace Sys2Proof.Machine

namespace Works

/-! ### What a change of frost state leaves alone -/

@[simp] theorem zones_notice (w : Works) (k : NoticeKind) (subject : Byte) (detail : Bytes) :
    (w.notice k subject detail).zones = w.zones := by
  unfold notice
  split
  · split <;> rfl
  · rfl

@[simp] theorem runs_notice (w : Works) (k : NoticeKind) (subject : Byte) (detail : Bytes) :
    (w.notice k subject detail).runs = w.runs := by
  unfold notice
  split
  · split <;> rfl
  · rfl

@[simp] theorem runs_submitUrgent (w : Works) (k : Byte) (dst : NodeId) (p : Bytes) :
    (w.submitUrgent k dst p).runs = w.runs := by
  unfold submitUrgent
  split <;> rfl

@[simp] theorem zones_sendAlert (w : Works) : w.sendAlert.zones = w.zones := zones_submitUrgent w _ _ _

@[simp] theorem runs_sendAlert (w : Works) : w.sendAlert.runs = w.runs := runs_submitUrgent w _ _ _

@[simp] theorem zones_driveAlert (w : Works) : w.driveAlert.zones = w.zones := by
  unfold driveAlert
  split
  · split
    · rfl
    · exact zones_sendAlert _
  · rfl

@[simp] theorem runs_driveAlert (w : Works) : w.driveAlert.runs = w.runs := by
  unfold driveAlert
  split
  · split
    · rfl
    · exact runs_sendAlert _
  · rfl

@[simp] theorem runs_touch (w : Works) (z : ZoneIx) : (w.touch z).runs = w.runs := by
  unfold touch
  split <;> rfl

/-- The generation is no part of the frost state (R87). -/
theorem zone_touch_frost (w : Works) (z x : ZoneIx) :
    ((w.touch z).zone x).frost = (w.zone x).frost := by
  unfold touch
  split
  · rfl
  · show ((w.modZone z fun y => { y with gen := y.gen + 1 }).zone x).frost = _
    rw [zone_modZone]
    split <;> rfl

/-! ### The change itself -/

@[simp] theorem runs_setFrost (w : Works) (z : ZoneIx) (new : FrostState) (thaw : Option Nat)
    (cause : FrostCause) : (w.setFrost z new thaw cause).runs = w.runs := by
  unfold setFrost
  split
  · rfl
  · simp

/-- The zone is in the new state, whether or not it was in it before. -/
theorem frost_setFrost_self (w : Works) (z : ZoneIx) (new : FrostState) (thaw : Option Nat)
    (cause : FrostCause) : ((w.setFrost z new thaw cause).zone z).frost = new := by
  unfold setFrost
  split
  · assumption
  · have hzones (v : Works) (subject : Byte) (detail : Bytes) :
        (v.driveAlert.notice .frostState subject detail).zone z = v.zone z := by simp [zone]
    rw [hzones, zone_touch_frost, zone_modZone_self]

theorem frost_settleZone_self (w : Works) (z : ZoneIx) (cause : FrostCause) :
    ((w.settleZone z cause).zone z).frost = w.settledState z := frost_setFrost_self w z _ none cause

@[simp] theorem runs_settleZone (w : Works) (z : ZoneIx) (cause : FrostCause) :
    (w.settleZone z cause).runs = w.runs := runs_setFrost w z _ none cause

/-- In UNPROTECTED the wet figure's side of release wet decides alone (R110). -/
theorem evaluate_of_unprotected (w : Works) (z : ZoneIx) (wet : Int) (counting : Bool)
    (cause : FrostCause) (h : (w.zone z).frost = .unprotected) :
    w.evaluate z wet counting cause =
      if (w.cfg z).releaseWet ≤ wet then w.settleZone z cause else w := by
  simp [evaluate, h]

end Works

/-- Settles O37: at release wet or above the evaluation is a settling, which sets the frost state of R104
and keeps the runs; below it there is no change. -/
theorem unprotectedEvaluation : Obligations.UnprotectedEvaluation := by
  intro w z wet counting cause hfrost
  rw [Works.evaluate_of_unprotected w z wet counting cause hfrost]
  refine ⟨fun hreleased => ?_, fun hcold => ?_⟩
  · rw [if_pos hreleased]
    exact ⟨w.frost_settleZone_self z cause, w.runs_settleZone z cause⟩
  · exact if_neg (Int.not_le.mpr hcold)

end Sys2Proof.Machine
end

section
/-! PROOF. What a command does before the step's end, and what every command keeps: the commands that
wait, the laws of the shared records, the windows, the counts and the queue bounds. -/

namespace Sys2Proof.Machine

open Works State

/-! ### The effect of a command -/

/-- What a command does to the part before the step's end. -/
def State.effect (s : State) : Instr → State
  | .hardReset => s.hardReset
  | .softReset => if s.resetLeaving then s.softReset else s
  | .fieldArrival frame => s.arrive frame
  | .fclTakeFrame => s.takeFrame
  | .fclHandOff => s.handHeld
  | .swuTakeReading => s.takeSwu
  | .join => s.takeEnu kindJoin fun w f _ => w.takeJoin f.src f.payload
  | .sheet => s.takeEnu kindSheet fun w f _ => w.takeSheet f.src f.payload
  | .earlyTraffic => s.takeEnu kindReading fun w f hit => w.takeEarly f.src hit
  | .valveAck => s.takeVcu
  | .uplinkFrameReceived frame => s.receive frame
  | .uplinkFrameSent => s.frameSent
  | .fieldTxHandOff => s.transmit
  | .fieldTxAnswer _ which => s.txAnswered which
  | .answerWaitExpiry => s.answerWaitOver
  | .deviceTimeTick => s.onWorks Works.tick
  | .silenceDeadline entry => s.onRow (entryIx? entry) Works.silenceExpiry
  | .lossDeadline entry => s.onRow (entryIx? entry) Works.lossExpiry
  | .windowClose nrs => s.windowCloses nrs
  | .sheetDeadline ctx => s.onRow (ctxIx? ctx) Works.sheetExpiry
  | .thawDeadline zone => s.onRow (zoneIx? zone) Works.thawExpiry
  | .alertTimerExpiry => s.onWorks Works.alertExpiry
  | .gatherDeadline slot => s.onRow (irrigationSlot? slot) Works.gatherDeadline
  | .completionDeadline slot zone => s.completes slot zone
  | .flowConfirmDeadline slot => s.onRow (slotIx? slot) Works.flowConfirmDeadline
  | .ackDeadline zone => s.onRow (zoneIx? zone) Works.ackDeadline
  | .drainDeadline => s.onWorks Works.drainExpiry
  | .pulseLeadEnd => s.onWorks Works.leadEnd
  | .pulseDriveEnd => s.onWorks Works.driveEnd
  | .pulseEnd => s.onWorks Works.tailEnd
  | .pulseGapEnd => s.onWorks Works.gapEnd
  | .timeRead port => s.serve port .timeRead timeReadService
  | .timeSet port => s.serve port .timeSet timeSetService
  | .start port => s.serve port .start startService
  | .reset port => s.serve port .reset resetService
  | .stageWrite port => s.serve port .stageWrite stageWriteService
  | .stageRead port => s.serve port .stageRead stageReadService
  | .stageCommit port => s.serve port .stageCommit stageCommitService
  | .stageDiscard port => s.serve port .stageDiscard stageDiscardService
  | .tableRead port => s.serve port .tableRead tableReadService
  | .nodeRead port => s.serve port .nodeRead nodeReadService
  | .nodeProbe port => s.serve port .nodeProbe nodeProbeService
  | .reserve port => s.serve port .reserve reserveService
  | .assign port => s.serve port .assign assignService
  | .release port => s.serve port .release releaseService
  | .restore port => s.serve port .restore restoreService
  | .zoneRead port => s.serve port .zoneRead zoneReadService
  | .zoneControlIfSet port => s.serve port .zoneControlSet zoneControlService
  | .clearValve port => s.serve port .clearValve clearValveService
  | .runOpen port => s.serve port .runOpen runOpenService
  | .runCancel port => s.serve port .runCancel runCancelService
  | .runRead port => s.serve port .runRead runReadService
  | .windowRead port => s.serve port .windowRead windowReadService
  | .passSend port => s.serve port .passSend passSendService
  | .watchSet port => s.serve port .watchSet watchSetService
  | .watchClear port => s.serve port .watchClear watchClearService
  | .noticeMask port => s.serve port .noticeMask noticeMaskService
  | .statusRead port => s.serve port .statusRead statusReadService
  | .malformedRequest port => s.serve port .malformed malformedService
  | .powerOn => s.poweredOn

/-- Every command answers the next state: its effect, with the step ended. -/
theorem exec_eq_effect (c : Instr) (s : State) : exec c s = .next (s.effect c).finish := by
  cases c <;> rfl

theorem exec_next_iff {c : Instr} {s t : State} :
    exec c s = .next t ↔ t = (s.effect c).finish := by
  rw [exec_eq_effect]
  exact ⟨fun h => (Host.Outcome.next.inj h).symm, fun h => h ▸ rfl⟩

/-- A step does nothing, or carries out the front command on the rest. -/
theorem step_cases {s t : State} (h : step s = .next t) :
    t = s ∨ ∃ c rest, s.pending = c :: rest ∧ t = (State.effect { s with pending := rest } c).finish := by
  unfold step at h
  split at h
  · exact .inl (Host.Outcome.next.inj h).symm
  · exact .inr ⟨_, _, by assumption, exec_next_iff.mp h⟩

/-! ### What the work on the shared records keeps -/

namespace Works

/-- The laws go on holding, and what the queue bounds and the counts speak of stands. -/
structure Steady (w v : Works) : Prop where
  upholds : Upholds w v
  device : v.device = w.device
  time : v.time = w.time
  reserved : v.reserved = w.reserved
  fieldErrors : v.fieldErrors = w.fieldErrors
  uplinkErrors : v.uplinkErrors = w.uplinkErrors
  uplink : w.upQueue.length + w.reserved ≤ Config.uplinkCapacity →
    v.upQueue.length + v.reserved ≤ Config.uplinkCapacity

variable {q n f : Bool} {u v w : Works}

theorem Steady.refl (w : Works) : Steady w w := ⟨.refl w, rfl, rfl, rfl, rfl, rfl, id⟩

theorem Steady.trans (a : Steady u v) (b : Steady v w) : Steady u w :=
  ⟨a.upholds.trans b.upholds, b.device.trans a.device, b.time.trans a.time,
    b.reserved.trans a.reserved, b.fieldErrors.trans a.fieldErrors,
    b.uplinkErrors.trans a.uplinkErrors, b.uplink ∘ a.uplink⟩

theorem Keeps.steady (a : Keeps true n f u v) : Steady u v :=
  ⟨a.upholds, a.device, a.time, a.reserved, a.fieldErrors, a.uplinkErrors, a.uplink⟩

theorem commit_steady (w : Works) (b : Tables) : Steady w (w.commit b).1 := by
  have hup := commit_upholds w b
  unfold commit at hup ⊢
  split
  · exact .refl w
  · rename_i h
    rw [h] at hup
    have k := activate_keeps (q := true) (n := true) w b
    exact ⟨hup, k.device, k.time, k.reserved, k.fieldErrors, k.uplinkErrors, k.uplink⟩

end Works

/-! ### What every command keeps -/

namespace State

/-- What every command keeps between two steps: the commands that wait, the laws of the shared records,
and the invariants of the windows, the counts and the queues. -/
structure Upkeep (s t : State) : Prop where
  pending : t.pending = s.pending
  works : Upholds s.works t.works
  windows : s.WindowsMatch → t.WindowsMatch
  counts : s.CountsWithin → t.CountsWithin
  queues : s.QueuesWithin → t.QueuesWithin

theorem Upkeep.refl (s : State) : Upkeep s s := ⟨rfl, .refl _, id, id, id⟩

/-- A command that leaves the windows' states and the uplink requests alone. -/
structure Passes (s t : State) : Prop where
  works : Steady s.works t.works
  pending : t.pending = s.pending := by exact rfl
  requests : t.requests = s.requests := by exact rfl
  isOpen : ∀ i : WinIx, t.windows[i].isOpen = s.windows[i].isOpen := by exact fun _ => rfl
  counts : (∀ (i : WinIx) (z : ZoneIx), s.windows[i].acc[z].count ≤ Config.sampleCap) →
    ∀ (i : WinIx) (z : ZoneIx), t.windows[i].acc[z].count ≤ Config.sampleCap := by exact id
  overflows : (∀ (i : WinIx) (z : ZoneIx), s.windows[i].acc[z].overflow ≤ 65535) →
    ∀ (i : WinIx) (z : ZoneIx), t.windows[i].acc[z].overflow ≤ 65535 := by exact id
  hits : (∀ i : Fin 4, s.watch[i].hits ≤ 255) → ∀ i : Fin 4, t.watch[i].hits ≤ 255 := by exact id
  rxFifo : s.rxFifo.length ≤ Config.rxCapacity → t.rxFifo.length ≤ Config.rxCapacity := by exact id
  swu : s.swuQueue.length ≤ Config.handOffCapacity →
    t.swuQueue.length ≤ Config.handOffCapacity := by exact id
  enu : s.enuQueue.length ≤ Config.handOffCapacity →
    t.enuQueue.length ≤ Config.handOffCapacity := by exact id
  vcu : s.vcuQueue.length ≤ Config.handOffCapacity →
    t.vcuQueue.length ≤ Config.handOffCapacity := by exact id
  mgu : s.mguQueue.length ≤ Config.handOffCapacity →
    t.mguQueue.length ≤ Config.handOffCapacity := by exact id

variable {q n f : Bool} {s t u : State}

theorem Passes.refl (s : State) : Passes s s := { works := .refl _ }

theorem Passes.trans (a : Passes s t) (b : Passes t u) : Passes s u where
  works := a.works.trans b.works
  pending := b.pending.trans a.pending
  requests := b.requests.trans a.requests
  isOpen i := (b.isOpen i).trans (a.isOpen i)
  counts := b.counts ∘ a.counts
  overflows := b.overflows ∘ a.overflows
  hits := b.hits ∘ a.hits
  rxFifo := b.rxFifo ∘ a.rxFifo
  swu := b.swu ∘ a.swu
  enu := b.enu ∘ a.enu
  vcu := b.vcu ∘ a.vcu
  mgu := b.mgu ∘ a.mgu

/-- Work on the shared records alone. -/
theorem Passes.onWorks {g : Works → Works} (k : Keeps true n f s.works (g s.works)) :
    Passes s (s.onWorks g) := { works := k.steady }

theorem WindowsMatch.of_same (hd : t.works.device = s.works.device)
    (h : ∀ i : WinIx, t.windows[i].isOpen = s.windows[i].isOpen) (hs : s.WindowsMatch) :
    t.WindowsMatch := by
  have h0 : t.windows[0].isOpen = s.windows[0].isOpen := h 0
  have h1 : t.windows[1].isOpen = s.windows[1].isOpen := h 1
  unfold WindowsMatch at hs ⊢
  rw [hd, h0, h1]
  exact hs

theorem Passes.upkeep (p : Passes s t) : Upkeep s t where
  pending := p.pending
  works := p.works.upholds
  windows := WindowsMatch.of_same p.works.device p.isOpen
  counts h :=
    { time := p.works.time ▸ h.time, fieldErrors := p.works.fieldErrors ▸ h.fieldErrors,
      uplinkErrors := p.works.uplinkErrors ▸ h.uplinkErrors, hits := p.hits h.hits,
      counts := p.counts h.counts, overflows := p.overflows h.overflows }
  queues h :=
    { rxFifo := p.rxFifo h.rxFifo, swu := p.swu h.swu, enu := p.enu h.enu, vcu := p.vcu h.vcu,
      mgu := p.mgu h.mgu, requests := p.requests ▸ h.requests,
      reserved := by rw [p.works.reserved, p.requests, h.reserved],
      uplink := p.works.uplink h.uplink, urgent := p.works.upholds.urgent h.urgent,
      command := p.works.upholds.command h.command, pass := p.works.upholds.pass h.pass }

/-! ### Deadlines and pulses -/

theorem onRow_passes {α : Type} (s : State) (ix : Option α) (g : Works → α → Works)
    (h : ∀ w x, Keeps true n f w (g w x)) : Passes s (s.onRow ix g) := by
  cases ix with
  | none => exact .refl s
  | some x => exact .onWorks (g := fun w => g w x) (h s.works x)

theorem completes_passes (s : State) (i z : Nat) : Passes s (s.completes i z) := by
  unfold completes
  split
  · exact .onWorks (completionDeadline_keeps (n := true) (f := true) _ _ _)
  · exact .refl s

theorem tick_upkeep (s : State) : Upkeep s (s.onWorks Works.tick) where
  pending := rfl
  works := Upholds.of_same rfl rfl rfl rfl rfl rfl le_rfl le_rfl le_rfl
  windows := id
  counts h := { h with time := Nat.min_le_right _ _ }
  queues h := { h with }

/-! ### The frame path -/

theorem hasSlot_length {b : Block} (h : s.hasSlot b = true) :
    (s.queueOf b).length + 1 ≤ Config.handOffCapacity := of_decide_eq_true h

theorem pushTo_passes (s : State) (b : Block) (h : HandOff) (hs : s.hasSlot b = true) :
    Passes s (s.pushTo b h) := by
  have hlen := hasSlot_length hs
  cases b
  · exact { works := .refl _, swu := fun _ => by simpa [pushTo, queueOf] using hlen }
  · exact { works := .refl _, enu := fun _ => by simpa [pushTo, queueOf] using hlen }
  · exact { works := .refl _, vcu := fun _ => by simpa [pushTo, queueOf] using hlen }
  · exact { works := .refl _, mgu := fun _ => by simpa [pushTo, queueOf] using hlen }

theorem handOff_passes (s : State) (b : Block) (h : HandOff) : Passes s (s.handOff b h) := by
  unfold handOff
  split
  · exact pushTo_passes s b h (by assumption)
  · exact { works := .refl _ }

theorem handHeld_passes (s : State) : Passes s s.handHeld := by
  unfold handHeld
  split
  · split
    · exact (pushTo_passes s _ _ (by assumption)).trans { works := .refl _ }
    · exact .refl s
  · exact .refl s

theorem arrive_passes (s : State) (frame : Bytes) : Passes s (s.arrive frame) := by
  have k := (arrive_keeps (q := true) (n := true) (f := true) s frame).steady
  unfold arrive at k ⊢
  split
  · rename_i h
    rw [if_pos h] at k
    exact { works := k, rxFifo := fun _ => by simpa using h }
  · rename_i h
    rw [if_neg h] at k
    exact { works := k }

theorem watchHit_hits (x : FieldFrame) (p : WatchPoint) (h : p.hits ≤ 255) :
    (watchHit x p).hits ≤ 255 := by
  unfold watchHit
  split
  · exact Nat.min_le_right _ _
  · exact h

theorem watchNotice_passes (s : State) (x : FieldFrame) (frame : Bytes) :
    Passes s (s.watchNotice x frame) := by
  unfold watchNotice
  split
  · exact .refl s
  · exact .onWorks (notice_keeps (n := true) (f := true) _ _ _ _)

theorem watchFrame_passes (s : State) (x : FieldFrame) (frame : Bytes) :
    Passes s (s.watchFrame x frame) := by
  refine (watchNotice_passes s x frame).trans { works := .refl _, hits := fun h i => ?_ }
  have hw : (s.watchNotice x frame).watch = s.watch := by
    unfold watchNotice
    split <;> rfl
  rw [hw] at h
  simp only [watchFrame, Fin.getElem_fin, mapRows_at]
  exact watchHit_hits x _ (h i)

theorem stray_passes (s : State) (x : FieldFrame) (frame : Bytes) : Passes s (s.stray x frame) :=
  { works := (stray_keeps (n := true) (f := true) s x frame).steady }

theorem toSwu_passes (s : State) (x : FieldFrame) (frame : Bytes) (h : Hit) (r : Option Role) :
    Passes s (s.toSwu x frame h r) :=
  .trans (.onWorks (Keeps.ite (passUp_keeps (n := true) (f := true) _ _ _ _) (.refl _)))
    (handOff_passes _ _ _)

theorem passGate_passes (s : State) (x : FieldFrame) (frame : Bytes) (e : EntryIx) (h : Hit) :
    Passes s (s.passGate x frame e h) := by
  have g : Passes s { s with works := (s.works.gate e x.seq).1 } :=
    { works := (gate_keeps _ e _).steady }
  unfold passGate
  dsimp only
  split
  · split
    · exact g.trans (toSwu_passes _ x frame h _)
    · split
      · exact g.trans (handOff_passes _ _ _)
      · exact g.trans (handOff_passes _ _ _)
  · exact g

theorem dispatch_passes (s : State) (x : FieldFrame) (frame : Bytes) (h : Hit) :
    Passes s (s.dispatch x frame h) := by
  unfold dispatch
  split
  · exact handOff_passes _ _ _
  split
  · unfold dispatchGated
    split
    · split
      · exact toSwu_passes _ _ _ _ _
      · exact stray_passes _ _ _
    · exact stray_passes _ _ _
    · split
      · exact passGate_passes _ _ _ _ _
      · split
        · exact handOff_passes _ _ _
        · exact stray_passes _ _ _
  · exact stray_passes _ _ _

theorem classify_passes (s : State) (x : FieldFrame) (frame : Bytes) :
    Passes s (s.classify x frame) := by
  unfold classify
  split
  · exact .onWorks (passUp_keeps (n := true) (f := true) _ _ _ _)
  · split
    · exact dispatch_passes _ _ _ _
    · exact .onWorks (latchStray_keeps (n := true) (f := true) _)

theorem classifyGood_passes (s : State) (x : FieldFrame) (frame : Bytes) :
    Passes s (s.classifyGood x frame) := by
  unfold classifyGood
  dsimp only
  split
  · exact (watchFrame_passes s x frame).trans (classify_passes _ _ _)
  · exact (watchFrame_passes s x frame).trans
      (.onWorks (passUp_keeps (n := true) (f := true) _ _ _ _))

/-- A frame that fails its check is counted, up to the limit of the count (R2). -/
theorem countFieldError_upkeep (s : State) : Upkeep s (s.onWorks Works.countFieldError) where
  pending := rfl
  works := countFieldError_upholds _
  windows := id
  counts h := { h with fieldErrors := Nat.min_le_right _ _ }
  queues h := { h with }

theorem classifyFrame_upkeep (s : State) (frame : Bytes) : Upkeep s (s.classifyFrame frame) := by
  unfold classifyFrame
  split
  · split
    · exact (classifyGood_passes _ _ _).upkeep
    · exact countFieldError_upkeep s
  · exact countFieldError_upkeep s

theorem Upkeep.trans (a : Upkeep s t) (b : Upkeep t u) : Upkeep s u :=
  ⟨b.pending.trans a.pending, a.works.trans b.works, b.windows ∘ a.windows, b.counts ∘ a.counts,
    b.queues ∘ a.queues⟩

theorem takeFrame_upkeep (s : State) : Upkeep s s.takeFrame := by
  unfold takeFrame
  split
  · rename_i frame rest _ hrx
    have hpop : Passes s { s with rxFifo := rest } :=
      { works := .refl _, rxFifo := fun h => by rw [hrx] at h; exact (Nat.le_succ _).trans h }
    exact hpop.upkeep.trans (classifyFrame_upkeep _ _)
  · exact .refl s

/-! ### The blocks -/

theorem add_count_le (a : Acc) (v : Int) (h : a.count ≤ Config.sampleCap) :
    (a.add v).count ≤ Config.sampleCap := by
  unfold Acc.add
  split
  · assumption
  · exact h

theorem add_overflow_le (a : Acc) (v : Int) (h : a.overflow ≤ 65535) :
    (a.add v).overflow ≤ 65535 := by
  unfold Acc.add
  split
  · exact h
  · exact Nat.min_le_right _ _

/-- One reading into one accumulator of an open window: each accumulator is as it was or has it. -/
theorem windowAdd_acc (x : Window) (z y : ZoneIx) (v : Int) :
    (x.add z v).acc[y] = x.acc[y] ∨ (x.add z v).acc[y] = x.acc[y].add v := by
  unfold Window.add
  split
  · dsimp only
    rw [upd_at]
    split
    · exact .inr rfl
    · exact .inl rfl
  · exact .inl rfl

theorem windowAdd_isOpen (x : Window) (z : ZoneIx) (v : Int) : (x.add z v).isOpen = x.isOpen := by
  unfold Window.add
  split <;> rfl

theorem accumulate_passes (s : State) (z : Option ZoneIx) (v : Int) : Passes s (s.accumulate z v) := by
  unfold accumulate
  split
  · rename_i z
    split
    · refine { works := .refl _, isOpen := fun i => ?_, counts := fun h i y => ?_,
               overflows := fun h i y => ?_ }
      · simpa using windowAdd_isOpen _ _ _
      · simp only [Fin.getElem_fin, mapRows_at]
        obtain e | e := windowAdd_acc s.windows[i] z y v
        · exact (congrArg Acc.count e).trans_le (h i y)
        · exact (congrArg Acc.count e).trans_le (add_count_le _ v (h i y))
      · simp only [Fin.getElem_fin, mapRows_at]
        obtain e | e := windowAdd_acc s.windows[i] z y v
        · exact (congrArg Acc.overflow e).trans_le (h i y)
        · exact (congrArg Acc.overflow e).trans_le (add_overflow_le _ v (h i y))
    · exact .refl s
  · exact .refl s

theorem routeFlow_passes (s : State) (src : NodeId) (v : Int) : Passes s (s.routeFlow src v) := by
  unfold routeFlow
  split
  · exact .onWorks (flowReading_keeps (n := true) (f := true) _ v)
  · exact .refl s

theorem routeValve_passes (s : State) (src : NodeId) (v : Int) : Passes s (s.routeValve src v) := by
  unfold routeValve
  split
  · exact .onWorks (positionReading_keeps (n := true) _ _ v)
  · exact .refl s

theorem routeRoster_passes (s : State) (e : EntryIx) (src : NodeId) (c : ClassCode) (v : Int) :
    Passes s (s.routeRoster e src c v) := by
  unfold routeRoster
  dsimp only
  split
  · exact accumulate_passes s _ v
  split
  · split
    · exact .onWorks (frostEvent_keeps (n := true) _ _ _ _)
    · exact .refl s
  split
  · exact routeFlow_passes s src v
  split
  · exact routeValve_passes s src v
  · exact .refl s

theorem routeWindow_passes (s : State) (z : ZoneIx) (src : NodeId) (c : ClassCode) (v : Int) :
    Passes s (s.routeWindow z src c v) := by
  unfold routeWindow
  split
  · exact accumulate_passes s _ v
  split
  · exact routeFlow_passes s src v
  split
  · exact routeValve_passes s src v
  · exact .refl s

theorem judgeRoster_passes (s : State) (e : EntryIx) (src : NodeId) (rs : List Reading) :
    Passes s (judgeRoster e src rs s) := by
  induction rs generalizing s with
  | nil => exact .refl s
  | cons r rs ih =>
    unfold judgeRoster
    split
    · rename_i v _
      have hk : Passes s (s.keepLatest e r.channel v) :=
        { works := (keepLatest_keeps (f := true) s e _ v).steady }
      exact (hk.trans (routeRoster_passes _ _ _ _ _)).trans (ih _)
    · have hb : Passes s (s.onWorks fun w => w.latchBounds.badReading e r.channel r.cls) :=
        .onWorks ((latchBounds_keeps _).trans (badReading_keeps _ _ _ _))
      dsimp only
      split
      · exact hb
      · exact hb.trans (ih _)

theorem judgeWindows_passes (s : State) (z : ZoneIx) (c : ClassCode) (src : NodeId)
    (rs : List Reading) : Passes s (rs.foldl (judgeWindow z c src) s) := by
  induction rs generalizing s with
  | nil => exact .refl s
  | cons r rs ih =>
    refine Passes.trans ?_ (ih _)
    unfold judgeWindow
    split
    · exact routeWindow_passes _ _ _ _ _
    · exact .onWorks (latchBounds_keeps (n := true) (f := true) _)

theorem takeReading_passes (s : State) (x : FieldFrame) (h : Hit) : Passes s (s.takeReading x h) := by
  unfold takeReading
  split
  · split
    · split
      · exact judgeRoster_passes _ _ _ _
      · exact .onWorks (latchStray_keeps (n := true) (f := true) _)
    · exact .refl s
  · split
    · split
      · exact judgeWindows_passes _ _ _ _ _
      · exact .onWorks (latchStray_keeps (n := true) (f := true) _)
    · exact .refl s
  · exact .refl s

theorem takeSwu_passes (s : State) : Passes s s.takeSwu := by
  unfold takeSwu
  split
  · rename_i h rest hq
    have hpop : Passes s { s with swuQueue := rest } :=
      { works := .refl _, swu := fun h => by rw [hq] at h; exact (Nat.le_succ _).trans h }
    split
    · exact hpop.trans (takeReading_passes _ _ _)
    · exact hpop
  · exact .refl s

theorem takeEnu_passes (s : State) (k : Byte) (g : Works → FieldFrame → Hit → Works)
    (hg : ∀ w x h, Keeps true n f w (g w x h)) : Passes s (s.takeEnu k g) := by
  unfold takeEnu
  split
  · rename_i h rest hq
    have hpop : Passes s { s with enuQueue := rest } :=
      { works := .refl _, enu := fun h => by rw [hq] at h; exact (Nat.le_succ _).trans h }
    split
    · split
      · exact hpop.trans (.onWorks (hg _ _ _))
      · exact .refl s
    · exact .refl s
  · exact .refl s

theorem takeVcu_passes (s : State) : Passes s s.takeVcu := by
  unfold takeVcu
  split
  · rename_i h rest hq
    have hpop : Passes s { s with vcuQueue := rest } :=
      { works := .refl _, vcu := fun h => by rw [hq] at h; exact (Nat.le_succ _).trans h }
    split
    · exact hpop.trans (.onWorks (takeAck_keeps (n := true) _ _ _))
    · exact hpop
  · exact .refl s

/-! ### The ports -/

theorem ready_bounds (h : s.ready = true) :
    s.works.upQueue.length + s.works.reserved + 1 ≤ Config.uplinkCapacity
      ∧ s.requests.length + 1 ≤ Config.requestCapacity := by
  obtain ⟨hup, hreq⟩ := Bool.and_eq_true_iff.mp h
  have hup : Config.readyMargin ≤ s.works.freeSlots := of_decide_eq_true hup
  unfold Works.freeSlots Config.readyMargin at hup
  exact ⟨by omega, of_decide_eq_true hreq⟩

/-- A taken request reserves the slot of its reply (R21); another host frame is counted, up to the limit
of the count (R20). -/
theorem receive_upkeep (s : State) (frame : Bytes) : Upkeep s (s.receive frame) := by
  unfold receive
  split
  · rename_i h
    simp only [Bool.and_eq_true] at h
    obtain ⟨hup, hreq⟩ := ready_bounds h.1.1
    exact
      { pending := rfl
        works := Upholds.of_same rfl rfl rfl rfl rfl rfl le_rfl le_rfl le_rfl
        windows := id
        counts := fun h => { h with }
        queues := fun h =>
          { h with
            requests := by simpa using hreq, reserved := by simpa using h.reserved,
            uplink := by simp only [works_onWorks]; omega } }
  · exact
      { pending := rfl
        works := Upholds.of_same rfl rfl rfl rfl rfl rfl le_rfl le_rfl le_rfl
        windows := id
        counts := fun h => { h with uplinkErrors := Nat.min_le_right _ _ }
        queues := fun h => { h with } }

theorem transmit_passes (s : State) : Passes s s.transmit := by
  unfold transmit
  split
  · rename_i w _ hc
    have hsteady : Steady s.works w := by
      unfold chooseTx at hc
      split at hc
      all_goals
        cases hc
        try rename_i hq
      all_goals
        refine ⟨Upholds.of_same rfl rfl rfl rfl rfl rfl ?_ ?_ ?_, rfl, rfl, rfl, rfl, rfl, id⟩ <;>
          simp [*]
    exact { works := hsteady }
  · exact .refl s

theorem txAnswered_passes (s : State) (x : AnswerFor) : Passes s (s.txAnswered x) := by
  cases x
  · exact { works := .refl _ }
  · exact .refl s

theorem answerWaitOver_passes (s : State) : Passes s s.answerWaitOver := by
  unfold answerWaitOver
  split
  · split
    · exact { works := .refl _ }
    · exact .refl s
  · exact .refl s

end State

end Sys2Proof.Machine
end

section
/-! PROOF. What every request, window close and reset keeps, and with that the invariants of every
step. -/

namespace Sys2Proof.Machine

open Works State

namespace State

variable {s t u : State}

/-! ### Requests -/

/-- What a request's own work keeps, between leaving its queue and its reply. -/
structure RequestWork (s t : State) : Prop where
  upholds : Upholds s.works t.works
  reserved : t.works.reserved = s.works.reserved := by exact rfl
  uplink : s.works.upQueue.length + s.works.reserved ≤ Config.uplinkCapacity →
    t.works.upQueue.length + t.works.reserved ≤ Config.uplinkCapacity := by exact id
  rxFifo : t.rxFifo = s.rxFifo := by exact rfl
  swu : t.swuQueue = s.swuQueue := by exact rfl
  enu : t.enuQueue = s.enuQueue := by exact rfl
  vcu : t.vcuQueue = s.vcuQueue := by exact rfl
  mgu : t.mguQueue = s.mguQueue := by exact rfl
  requests : t.requests = s.requests := by exact rfl
  pending : t.pending = s.pending := by exact rfl
  windows : s.WindowsMatch → t.WindowsMatch := by exact id
  counts : s.CountsWithin → t.CountsWithin

theorem RequestWork.refl (s : State) : RequestWork s s := { upholds := .refl _, counts := id }

/-- Work on the shared records alone. -/
theorem RequestWork.of_steady {w : Works} (k : Steady s.works w) :
    RequestWork s { s with works := w } where
  upholds := k.upholds
  reserved := k.reserved
  uplink := k.uplink
  windows := WindowsMatch.of_same k.device fun _ => rfl
  counts h :=
    { h with
      time := k.time ▸ h.time, fieldErrors := k.fieldErrors ▸ h.fieldErrors,
      uplinkErrors := k.uplinkErrors ▸ h.uplinkErrors }

/-- A change of what no invariant speaks of. -/
theorem RequestWork.aside (hw : t.works = s.works) (h1 : t.rxFifo = s.rxFifo)
    (h2 : t.swuQueue = s.swuQueue) (h3 : t.enuQueue = s.enuQueue) (h4 : t.vcuQueue = s.vcuQueue)
    (h5 : t.mguQueue = s.mguQueue) (h6 : t.requests = s.requests) (h7 : t.pending = s.pending)
    (h8 : t.windows = s.windows) (h9 : ∀ i : Fin 4, s.watch[i].hits ≤ 255 → t.watch[i].hits ≤ 255) :
    RequestWork s t where
  upholds := hw ▸ .refl _
  reserved := by rw [hw]
  uplink := by rw [hw]; exact id
  rxFifo := h1
  swu := h2
  enu := h3
  vcu := h4
  mgu := h5
  requests := h6
  pending := h7
  windows := WindowsMatch.of_same (by rw [hw]) fun i => by rw [h8]
  counts h :=
    { time := hw ▸ h.time, fieldErrors := hw ▸ h.fieldErrors, uplinkErrors := hw ▸ h.uplinkErrors,
      hits := fun i => h9 i (h.hits i), counts := h8 ▸ h.counts, overflows := h8 ▸ h.overflows }

/-- What a reply leaves of the part around the shared records. -/
theorem answer_eq (s : State) (port : Port) (t : Taken) (a : Answer) :
    s.answer port t a = { s with works := (s.answer port t a).works } := by
  cases port <;> rfl

theorem answer_field_steady (s : State) (t : Taken) (a : Answer) :
    Steady s.works (s.answer .field t a).works :=
  (submitReply_keeps (n := true) (f := true) _ _ _).steady

theorem dropField_passes (s : State) : Passes s (s.dropRequest .field) :=
  { works := .refl _, mgu := fun h => (List.tail_sublist _).length_le.trans h }

/-- The reply of an uplink request takes the slot that was reserved with it (R21, R174). -/
theorem answered_upkeep (port : Port) (x : Taken) (a : Answer)
    (hx : s.nextRequest port ≠ none) (k : RequestWork (s.dropRequest port) t) :
    Upkeep s (t.answer port x a) := by
  cases port with
  | field =>
    have hreply := answer_field_steady t x a
    have hpass : Passes s (s.dropRequest .field) := dropField_passes s
    refine hpass.upkeep.trans ⟨k.pending, k.upholds.trans hreply.upholds, fun h => ?_, fun h => ?_,
      fun h => ?_⟩
    · exact WindowsMatch.of_same hreply.device (fun _ => rfl) (k.windows h)
    · have c := k.counts h
      exact { c with
        time := hreply.time ▸ c.time, fieldErrors := hreply.fieldErrors ▸ c.fieldErrors,
        uplinkErrors := hreply.uplinkErrors ▸ c.uplinkErrors }
    · have hup := k.upholds.trans hreply.upholds
      exact
        { rxFifo := k.rxFifo ▸ h.rxFifo, swu := k.swu ▸ h.swu, enu := k.enu ▸ h.enu,
          vcu := k.vcu ▸ h.vcu, mgu := k.mgu ▸ h.mgu, requests := k.requests ▸ h.requests,
          reserved := hreply.reserved.trans (k.reserved.trans (k.requests ▸ h.reserved)),
          uplink := hreply.uplink (k.uplink h.uplink), urgent := hup.urgent h.urgent,
          command := hup.command h.command, pass := hup.pass h.pass }
  | uplink =>
    have hreq : s.requests ≠ [] := by
      intro e
      exact hx (by simp [nextRequest, e])
    have hlen : s.requests.tail.length + 1 = s.requests.length := by
      cases hr : s.requests with
      | nil => exact absurd hr hreq
      | cons r rs => rfl
    have hreply := reply_upholds t.works x.echo ([x.code, a.result.code] ++ a.data)
    refine ⟨k.pending, k.upholds.trans hreply, fun h => ?_, fun h => ?_, fun h => ?_⟩
    · exact k.windows h
    · exact { k.counts { h with } with }
    · have hreserved : t.works.reserved = s.requests.length := k.reserved.trans h.reserved
      have hroom := k.uplink h.uplink
      have hup := k.upholds.trans hreply
      exact
        { rxFifo := k.rxFifo ▸ h.rxFifo, swu := k.swu ▸ h.swu, enu := k.enu ▸ h.enu,
          vcu := k.vcu ▸ h.vcu, mgu := k.mgu ▸ h.mgu
          requests := (congrArg List.length k.requests).trans_le
            ((List.tail_sublist _).length_le.trans h.requests)
          reserved := by
            show t.works.reserved - 1 = t.requests.length
            rw [k.requests, requests_dropUplink]
            omega
          uplink := by
            show (t.works.upQueue ++ [_]).length + (t.works.reserved - 1) ≤ _
            rw [List.length_append, List.length_singleton]
            omega
          urgent := hup.urgent h.urgent, command := hup.command h.command, pass := hup.pass h.pass }

theorem authorityNotice_work (s : State) (x : Taken) : RequestWork s (s.authorityNotice x) := by
  have k := (authorityNotice_keeps (q := true) (n := true) (f := true) s x).steady
  unfold authorityNotice at k ⊢
  split
  · exact .of_steady (notice_keeps (n := true) (f := true) _ _ _ _).steady
  all_goals exact .refl s

/-- A request row keeps what every command keeps when its own work does. -/
theorem serve_upkeep {α : Type} (s : State) (port : Port) (row : RequestRow) (v : Service α)
    (h : ∀ code args a u, (request? code args).bind v.pick = some a →
      RequestWork u (v.body a u).1) : Upkeep s (s.serve port row v) := by
  have hstray (hp : ∀ x b, standing port x b = .stray → port = .field) (x : Taken) (b : Bool)
      (e : standing port x b = .stray) : Upkeep s ((s.dropRequest port).onWorks latchStray) := by
    obtain rfl := hp x b e
    exact ((dropField_passes s).trans
      (.onWorks (latchStray_keeps (n := true) (f := true) _))).upkeep
  have hp : ∀ x b, standing port x b = .stray → port = .field := by
    intro x b e
    cases port with
    | uplink => cases e
    | field => rfl
  unfold serve
  split
  · exact .refl s
  · rename_i x hx
    have hne : s.nextRequest port ≠ none := by rw [hx]; exact nofun
    split
    · unfold carryOut
      split
      · split
        · exact hstray hp x _ (by assumption)
        · exact answered_upkeep port x _ hne (.refl _)
        · exact answered_upkeep port x _ hne (.refl _)
      · split
        · exact hstray hp x _ (by assumption)
        · exact answered_upkeep port x _ hne (authorityNotice_work _ x)
        · exact answered_upkeep port x _ hne (h _ _ _ _ (by assumption))
    · exact .refl s

/-! ### The services -/

theorem nat32_le (a b c d : Byte) : nat32 a b c d ≤ Config.timeMax := by
  have ha := a.isLt
  have hb := b.isLt
  have hc := c.isLt
  have hd := d.isLt
  unfold nat32 nat16 Config.timeMax
  omega

/-- The time a TIME.SET gives is four bytes of its arguments (11.4). -/
theorem request_timeSet {code : Byte} {args : Bytes} {time : Nat}
    (h : request? code args = some (.timeSet time)) : ∃ a b c d, time = nat32 a b c d := by
  have hplain : plainRequest? code args = some (.timeSet time) := by
    unfold request? stageWrite? stageRead? nodeWrite? zoneControl? at h
    repeat' split at h
    all_goals first
      | exact h
      | cases h
      | (obtain ⟨_, _, e⟩ := Option.map_eq_some_iff.mp h; cases e)
  unfold plainRequest? bareRequest? at hplain
  repeat' split at hplain
  all_goals cases hplain
  exact ⟨_, _, _, _, rfl⟩

theorem timeSetBody_work (s : State) (time : Nat) (h : time ≤ Config.timeMax) :
    RequestWork s (timeSetBody time s).1 := by
  have hup := timeSetBody_upholds s time
  unfold timeSetBody at hup ⊢
  split
  · exact .refl s
  · rename_i hr
    rw [if_neg hr] at hup
    exact { upholds := hup, counts := fun c => { c with time := h } }

/-! ### Windows -/

/-- The counts of a window that saturate are within their ranges (R70). -/
def windowWithin (x : Window) : Prop :=
  ∀ z : ZoneIx, x.acc[z].count ≤ Config.sampleCap ∧ x.acc[z].overflow ≤ 65535

theorem CountsWithin.window (h : s.CountsWithin) (i : WinIx) : windowWithin s.windows[i] :=
  fun z => ⟨h.counts i z, h.overflows i z⟩

theorem windowWithin_openAt (x : Window) (time period : Nat) : windowWithin (x.openAt time period) := by
  intro z
  simp [Window.openAt, Acc.cleared]

theorem windowWithin_cleared : windowWithin Window.cleared := by
  intro z
  simp [Window.cleared, Acc.cleared]

/-- Windows that have been replaced one by one by windows within the ranges. -/
theorem windowWithin_set {ws : Vector Window 2} (h : ∀ i : WinIx, windowWithin ws[i]) (k : WinIx)
    {x : Window} (hx : windowWithin x) (i : WinIx) : windowWithin (ws.set k.val x k.isLt)[i] := by
  by_cases e : i = k
  · subst e
    rw [set_at_self]
    exact hx
  · rw [set_at_other _ _ _ _ e]
    exact h i

/-- In HALTED both windows are closed, so START opens the one window of RUNNING (R76). -/
theorem startBody_work (s : State) (a : Unit) : RequestWork s (startBody a s).1 := by
  have hup := startBody_upholds s a
  unfold startBody at hup ⊢
  split
  · exact .refl s
  · rename_i hr
    rw [if_neg hr] at hup
    have k : Keeps true false true { s.works with device := .running, alert := false, alertTimer := none }
        s.started.works := (rosterStart_keeps _).trans (startBroadcast_keeps _)
    refine
      { upholds := hup, reserved := k.reserved, uplink := k.uplink, windows := fun h => ?_,
        counts := fun c => ?_ }
    · have hd : s.works.device = .halted := by
        cases hdev : s.works.device with
        | halted => rfl
        | running => exact absurd (by simp [running, hdev]) hr
      unfold WindowsMatch at h ⊢
      rw [hd] at h
      obtain ⟨_, h1⟩ := h
      have hrun : s.started.works.device = .running := k.device
      rw [hrun]
      simp [started, Window.openAt, h1]
    · have hwin := windowWithin_set (c.window) 0
        (windowWithin_openAt s.windows[0] s.works.time s.works.site.windowPeriod)
      exact
        { time := k.time ▸ c.time, fieldErrors := k.fieldErrors ▸ c.fieldErrors,
          uplinkErrors := k.uplinkErrors ▸ c.uplinkErrors, hits := c.hits,
          counts := fun i z => (hwin i z).1, overflows := fun i z => (hwin i z).2 }

theorem watchSetBody_work (s : State) (a : Nat × WatchPoint) (h : a.2.hits ≤ 255) :
    RequestWork s (watchSetBody a s).1 := by
  unfold watchSetBody
  split
  · rename_i k _
    refine .aside rfl rfl rfl rfl rfl rfl rfl rfl rfl fun i hi => ?_
    by_cases e : i = k
    · subst e
      simpa using h
    · simpa [set_at_other _ _ _ _ e] using hi
  · exact .refl s

theorem noticeMaskBody_work (s : State) (kinds : Bytes) : RequestWork s (noticeMaskBody kinds s).1 := by
  have hup := noticeMaskBody_upholds s kinds
  unfold noticeMaskBody at hup ⊢
  split
  · rename_i hk
    rw [if_pos hk] at hup
    exact .of_steady ⟨hup, rfl, rfl, rfl, rfl, rfl, id⟩
  · exact .refl s

theorem statusReadBody_work (s : State) (a : Unit) : RequestWork s (statusReadBody a s).1 where
  upholds := statusReadBody_upholds s a
  counts c := { c with fieldErrors := Nat.zero_le _, uplinkErrors := Nat.zero_le _ }

theorem passSendBody_work (s : State) (frame : Bytes) : RequestWork s (passSendBody frame s).1 := by
  have hup := passSendBody_upholds s frame
  unfold passSendBody at hup ⊢
  split
  · rename_i hg
    rw [if_pos hg] at hup
    split
    · exact .refl s
    · rename_i f hf
      rw [hf] at hup
      dsimp only at hup
      split
      · exact .refl s
      · rename_i hm
        rw [if_neg hm] at hup
        split
        · exact .refl s
        · rename_i hfull
          rw [if_neg hfull] at hup
          exact .of_steady ⟨hup, rfl, rfl, rfl, rfl, rfl, id⟩
  · exact .refl s

theorem stageWriteBody_work (s : State) (a : Option (TableName × Nat × Bytes)) :
    RequestWork s (stageWriteBody a s).1 := by
  have haside : ∀ b, RequestWork s { s with bank := b } := fun _ =>
    .aside rfl rfl rfl rfl rfl rfl rfl rfl rfl fun _ => id
  unfold stageWriteBody
  split
  · exact .refl s
  split
  · exact .refl s
  split
  · exact .refl s
  split
  · exact .refl s
  split
  · exact .refl s
  · exact haside _

theorem stageReadBody_work (s : State) (a : Option TableName × Nat) :
    RequestWork s (stageReadBody a s).1 := by
  unfold stageReadBody
  split <;> exact .refl s

theorem stageCommitBody_work (s : State) (a : Unit) : RequestWork s (stageCommitBody a s).1 := by
  unfold stageCommitBody
  split
  · exact .refl s
  split
  · exact .aside rfl rfl rfl rfl rfl rfl rfl rfl rfl fun _ => id
  · unfold commitNow
    dsimp only
    split
    · exact .of_steady (commit_steady _ _)
    · exact .refl s

theorem tableReadBody_work (s : State) (a : Byte × Nat) : RequestWork s (tableReadBody a s).1 := by
  unfold tableReadBody
  split <;> exact .refl s

theorem windowReadBody_work (s : State) (a : Nat × Nat) : RequestWork s (windowReadBody a s).1 := by
  unfold windowReadBody
  split
  · split <;> exact .refl s
  · exact .refl s

theorem nodeReadBody_work (s : State) (e : Nat) : RequestWork s (nodeReadBody e s).1 := by
  unfold nodeReadBody
  split <;> exact .refl s

/-- A conditional write keeps what its operation keeps. -/
theorem nodeWrite_work (s : State) (e : Nat) (g : Word16)
    (op : EntryIx → State → Except ResultCode Works)
    (h : ∀ x w, op x s = .ok w → Keeps true false false s.works w) :
    RequestWork s (s.nodeWrite e g op).1 := by
  unfold nodeWrite
  split
  · exact .refl s
  split
  · split
    · exact .refl s
    · exact .of_steady (h _ _ (by assumption)).steady
  · exact .refl s

theorem reserveBody_work (s : State) (a : Option ReserveArgs) : RequestWork s (reserveBody a s).1 := by
  unfold reserveBody
  split
  · refine nodeWrite_work s _ _ _ fun x w hw => ?_
    unfold reserveOp at hw
    repeat' split at hw
    all_goals cases hw
    exact reserveEntry_keeps _ _ _ _ _
  · exact .refl s

theorem assignBody_work (s : State) (a : Nat × Word16 × Byte) : RequestWork s (assignBody a s).1 := by
  refine nodeWrite_work s _ _ _ fun x w hw => ?_
  unfold assignOp at hw
  repeat' split at hw
  all_goals cases hw
  exact assignEntry_keeps _ _ _

theorem releaseBody_work (s : State) (a : Nat × Word16) : RequestWork s (releaseBody a s).1 := by
  refine nodeWrite_work s _ _ _ fun x w hw => ?_
  unfold releaseOp at hw
  split at hw
  all_goals cases hw
  exact releaseEntry_keeps _ _

theorem restoreBody_work (s : State) (a : Nat × Word16) : RequestWork s (restoreBody a s).1 := by
  refine nodeWrite_work s _ _ _ fun x w hw => ?_
  unfold restoreOp at hw
  split at hw
  all_goals cases hw
  exact restoreEntry_keeps _ _

theorem zoneReadBody_work (s : State) (z : Nat) : RequestWork s (zoneReadBody z s).1 := by
  unfold zoneReadBody
  split <;> exact .refl s

theorem zoneControlBody_work (s : State) (a : Option ControlArgs) :
    RequestWork s (zoneControlBody a s).1 := by
  unfold zoneControlBody
  split
  · exact .refl s
  split
  · split
    · exact .of_steady (setControls_keeps (n := true) _ _ _ _).steady
    · exact .refl s
  · exact .refl s

theorem clearValveBody_work (s : State) (a : Nat × Word16) : RequestWork s (clearValveBody a s).1 := by
  unfold clearValveBody
  split
  · exact .refl s
  split
  · exact .refl s
  split
  · exact .refl s
  · rename_i hstuck
    exact .of_steady (clearValve_keeps (n := true) _ _ (not_not.mp hstuck)).steady

theorem runOpenBody_work (s : State) (items : List (Nat × Nat)) :
    RequestWork s (runOpenBody items s).1 := by
  unfold runOpenBody openChecked
  split
  · exact .refl s
  split
  · exact .refl s
  split
  · exact .refl s
  split
  · exact .refl s
  split
  · exact .refl s
  · exact .of_steady (openRun_keeps (n := true) (f := true) _ _ _).steady

theorem runCancelBody_work (s : State) (a : Nat × Word16) : RequestWork s (runCancelBody a s).1 := by
  unfold runCancelBody
  split
  · exact .refl s
  split
  · exact .refl s
  split
  · exact .refl s
  split
  · exact .of_steady (cancelFrost_keeps (n := true) _).steady
  · exact .of_steady (cancelIrrigation_keeps (n := true) (f := true) _ _ _).steady

theorem runReadBody_work (s : State) (a : Nat × Nat) : RequestWork s (runReadBody a s).1 := by
  unfold runReadBody
  split
  · exact .refl s
  split
  · exact .refl s
  split <;> exact .refl s

/-! ### The window close -/

/-- s with window i closed and nothing else done (R77). -/
def withClosed (s : State) (i : WinIx) : State :=
  { s with windows := s.windows.set i.val (s.windows[i].close s.works.time) i.isLt }

/-- s after the fold of window i and NRS's work where it comes before MGU's share (R77, R89). -/
def afterFold (s : State) (i : WinIx) (nrs : NrsTurn) : State :=
  ((s.withClosed i).foldClosed i).nrsTurn nrs .beforeCommit

/-- s with the other window opened after MGU's share (R78). -/
def afterOpening (s : State) (i : WinIx) (nrs : NrsTurn) : State :=
  (s.afterFold i nrs).commitAtClose.openOther (otherWindow i)

theorem closeWindow_eq_afterOpening (s : State) (i : WinIx) (nrs : NrsTurn) :
    s.closeWindow i nrs =
      (((((s.afterOpening i nrs).nrsTurn nrs .beforeReports).reportsAtClose i nrs).triggerAtClose
        nrs).nrsTurn nrs .afterTrigger) := rfl

/-- t is s but for the shared records. -/
def OnlyWorks (s t : State) : Prop := t = { s with works := t.works }

theorem OnlyWorks.refl (s : State) : OnlyWorks s s := rfl

theorem OnlyWorks.onWorks (s : State) (f : Works → Works) : OnlyWorks s (s.onWorks f) := rfl

theorem OnlyWorks.trans (a : OnlyWorks s t) (b : OnlyWorks t u) : OnlyWorks s u :=
  Eq.trans b (congrArg (fun x : State => { x with works := u.works }) a)

theorem nrsTurn_only (s : State) (a b : NrsTurn) : OnlyWorks s (s.nrsTurn a b) := by
  unfold nrsTurn
  split
  · exact .onWorks _ _
  · exact .refl s

theorem foldClosed_only (s : State) (i : WinIx) : OnlyWorks s (s.foldClosed i) := by
  unfold foldClosed
  split
  · exact .onWorks _ _
  · exact .refl s

theorem afterFold_only (s : State) (i : WinIx) (nrs : NrsTurn) :
    OnlyWorks (s.withClosed i) (s.afterFold i nrs) := (foldClosed_only _ i).trans (nrsTurn_only _ _ _)

theorem commitAtClose_eq (s : State) :
    s.commitAtClose = { s with works := s.commitAtClose.works, commitPending := false } := by
  unfold commitAtClose
  split
  · rfl
  · rename_i h
    rw [Bool.not_eq_true] at h
    obtain ⟨⟩ := s
    cases h
    rfl

theorem afterFold_keeps (s : State) (i : WinIx) (nrs : NrsTurn) :
    Keeps true false false s.works (s.afterFold i nrs).works :=
  (foldClosed_keeps (s.withClosed i) i).trans (nrsTurn_keeps _ _ _)

theorem commitAtClose_steady (s : State) : Steady s.works s.commitAtClose.works := by
  unfold commitAtClose
  split
  · exact (commit_steady _ _).trans (commitNotice_keeps (n := true) (f := true) _ _ _).steady
  · exact .refl _

theorem afterOpening_steady (s : State) (i : WinIx) (nrs : NrsTurn) :
    Steady s.works (s.afterOpening i nrs).works :=
  (afterFold_keeps s i nrs).steady.trans (commitAtClose_steady _)

/-- After the other window has opened, a close works on the shared records alone. -/
theorem closeWindow_only (s : State) (i : WinIx) (nrs : NrsTurn) :
    OnlyWorks (s.afterOpening i nrs) (s.closeWindow i nrs) := by
  rw [closeWindow_eq_afterOpening]
  exact (((nrsTurn_only _ _ _).trans (.onWorks _ _)).trans (.onWorks _ _)).trans (nrsTurn_only _ _ _)

theorem closeWindow_keeps (s : State) (i : WinIx) (nrs : NrsTurn) :
    Keeps true false false (s.afterOpening i nrs).works (s.closeWindow i nrs).works := by
  rw [closeWindow_eq_afterOpening]
  exact (((nrsTurn_keeps _ _ _).trans (reportsAtClose_keeps _ _ _)).trans
    (triggerAtClose_keeps _ _)).trans (nrsTurn_keeps _ _ _)

theorem committed_windows (s : State) (i : WinIx) (nrs : NrsTurn) :
    (s.afterFold i nrs).commitAtClose.windows = (s.withClosed i).windows := by
  exact Eq.trans (congrArg State.windows (commitAtClose_eq _) :)
    (congrArg State.windows (afterFold_only s i nrs) :)

theorem afterOpening_windows (s : State) (i : WinIx) (nrs : NrsTurn) :
    (s.afterOpening i nrs).windows =
      (s.withClosed i).windows.set (otherWindow i).val
        ((s.withClosed i).windows[otherWindow i].openAt (s.afterOpening i nrs).works.time
          (s.afterOpening i nrs).works.site.windowPeriod) (otherWindow i).isLt := by
  rw [← committed_windows s i nrs]
  rfl

/-- The windows after a close: the closed one keeps its totals, the other is opened (R77, R78). -/
theorem closeWindow_windows (s : State) (i : WinIx) (nrs : NrsTurn) :
    (s.closeWindow i nrs).windows =
      (s.withClosed i).windows.set (otherWindow i).val
        ((s.withClosed i).windows[otherWindow i].openAt (s.closeWindow i nrs).works.time
          (s.closeWindow i nrs).works.site.windowPeriod) (otherWindow i).isLt := by
  have k := closeWindow_keeps s i nrs
  rw [k.time, k.site, congrArg State.windows (closeWindow_only s i nrs)]
  exact s.afterOpening_windows i nrs

theorem winIx_cases (i : WinIx) : i = 0 ∨ i = 1 := by
  revert i
  decide

theorem otherWindow_ne (i : WinIx) : otherWindow i ≠ i := by
  revert i
  decide

theorem closeWindow_closed (s : State) (i : WinIx) (nrs : NrsTurn) :
    (s.closeWindow i nrs).windows[i] = s.windows[i].close s.works.time := by
  rw [closeWindow_windows, set_at_other _ _ _ _ (otherWindow_ne i).symm]
  exact set_at_self _ _ _

theorem closeWindow_opened (s : State) (i : WinIx) (nrs : NrsTurn) :
    (s.closeWindow i nrs).windows[otherWindow i] =
      s.windows[otherWindow i].openAt (s.closeWindow i nrs).works.time
        (s.closeWindow i nrs).works.site.windowPeriod := by
  rw [closeWindow_windows, set_at_self]
  congr 1
  exact set_at_other _ _ _ _ (otherWindow_ne i)

theorem closeWindow_steady (s : State) (i : WinIx) (nrs : NrsTurn) :
    Steady s.works (s.closeWindow i nrs).works :=
  (afterOpening_steady s i nrs).trans (closeWindow_keeps s i nrs).steady

/-- A close leaves the queues, the watch points and the waiting commands alone. -/
theorem closeWindow_around (s : State) (i : WinIx) (nrs : NrsTurn) :
    s.closeWindow i nrs =
      { s with
        works := (s.closeWindow i nrs).works, windows := (s.closeWindow i nrs).windows,
        folds := (s.afterOpening i nrs).folds, commitPending := false } := by
  have hopen : s.afterOpening i nrs =
      { s with
        works := (s.afterOpening i nrs).works, windows := (s.afterOpening i nrs).windows,
        folds := (s.afterOpening i nrs).folds, commitPending := false } := by
    unfold afterOpening
    rw [commitAtClose_eq, afterFold_only]
    rfl
  rw [congrArg State.windows (closeWindow_only s i nrs)]
  exact Eq.trans (closeWindow_only s i nrs)
    (congrArg (fun x : State => { x with works := (s.closeWindow i nrs).works }) hopen)

/-- The window that closes was the open one, so the part is RUNNING and the other one opens (R77). -/
theorem closeWindow_upkeep (s : State) (i : WinIx) (nrs : NrsTurn) (hopen : s.windows[i].isOpen = true) :
    Upkeep s (s.closeWindow i nrs) := by
  have k := closeWindow_steady s i nrs
  have hclosed : (s.closeWindow i nrs).windows[i].isOpen = false := by
    rw [closeWindow_closed]
    rfl
  have hopened : (s.closeWindow i nrs).windows[otherWindow i].isOpen = true := by
    rw [closeWindow_opened]
    rfl
  have e := closeWindow_around s i nrs
  refine ⟨(congrArg State.pending e :), k.upholds, fun h => ?_, fun c => ?_,
    fun h => ?_⟩
  · unfold WindowsMatch at h ⊢
    rw [k.device]
    cases hd : s.works.device with
    | halted =>
      rw [hd] at h
      obtain rfl | rfl := winIx_cases i
      · exact absurd (h.1.symm.trans hopen) nofun
      · exact absurd (h.2.symm.trans hopen) nofun
    | running =>
      obtain rfl | rfl := winIx_cases i
      · exact fun same => nomatch hclosed.symm.trans (same.trans hopened)
      · exact fun same => nomatch hopened.symm.trans (same.trans hclosed)
  · have hwin : ∀ j : WinIx, windowWithin (s.closeWindow i nrs).windows[j] := by
      rw [closeWindow_windows]
      have hclose : windowWithin (s.windows[i].close s.works.time) := c.window i
      exact windowWithin_set (windowWithin_set c.window i hclose) _ (windowWithin_openAt _ _ _)
    exact
      { time := k.time ▸ c.time, fieldErrors := k.fieldErrors ▸ c.fieldErrors,
        uplinkErrors := k.uplinkErrors ▸ c.uplinkErrors,
        hits := (congrArg State.watch e :) ▸ c.hits,
        counts := fun j z => (hwin j z).1, overflows := fun j z => (hwin j z).2 }
  · have hrequests : (s.closeWindow i nrs).requests = s.requests := (congrArg State.requests e :)
    exact
      { rxFifo := (congrArg State.rxFifo e :) ▸ h.rxFifo, swu := (congrArg State.swuQueue e :) ▸ h.swu,
        enu := (congrArg State.enuQueue e :) ▸ h.enu, vcu := (congrArg State.vcuQueue e :) ▸ h.vcu,
        mgu := (congrArg State.mguQueue e :) ▸ h.mgu, requests := hrequests ▸ h.requests,
        reserved := by rw [k.reserved, hrequests, h.reserved],
        uplink := k.uplink h.uplink, urgent := k.upholds.urgent h.urgent,
        command := k.upholds.command h.command, pass := k.upholds.pass h.pass }

theorem windowCloses_upkeep (s : State) (nrs : NrsTurn) : Upkeep s (s.windowCloses nrs) := by
  unfold windowCloses
  split
  · rename_i i hi
    have hi := List.find?_some hi
    exact closeWindow_upkeep s i nrs (Bool.and_eq_true_iff.mp hi).1
  · exact .refl s

/-! ### Resets -/

theorem reset_zone (z : ZoneIx) : State.reset.works.zone z = Zone.cleared 0 := by
  simp [State.reset, Works.powerOn, Works.zone]

theorem reset_run (i : SlotIx) : State.reset.works.run i = none := by
  simp [State.reset, Works.powerOn, Works.run]

theorem reset_window (i : WinIx) : State.reset.windows[i] = Window.cleared := by
  simp [State.reset]

theorem reset_windowsMatch : State.reset.WindowsMatch := ⟨rfl, rfl⟩

theorem reset_queues : State.reset.QueuesWithin := by
  constructor <;> decide

/-- A part at its reset values but for the shared records, the bank, the watch points and the pins. -/
theorem Upkeep.of_reset (hp : t.pending = s.pending) (hw : Upholds s.works t.works)
    (hd : t.works.device = .halted) (htime : s.works.time ≤ Config.timeMax → t.works.time ≤ Config.timeMax)
    (hf : t.works.fieldErrors = 0) (hu : t.works.uplinkErrors = 0) (hr : t.works.reserved = 0)
    (hq : t.works.upQueue = []) (hwin : t.windows = State.reset.windows)
    (hwatch : (∀ i : Fin 4, s.watch[i].hits ≤ 255) → ∀ i : Fin 4, t.watch[i].hits ≤ 255)
    (h1 : t.rxFifo = []) (h2 : t.swuQueue = []) (h3 : t.enuQueue = []) (h4 : t.vcuQueue = [])
    (h5 : t.mguQueue = []) (h6 : t.requests = []) : Upkeep s t where
  pending := hp
  works := hw
  windows _ := WindowsMatch.of_same (s := State.reset) hd (fun i => by rw [hwin]) reset_windowsMatch
  counts c :=
    { time := htime c.time, fieldErrors := hf ▸ Nat.zero_le _, uplinkErrors := hu ▸ Nat.zero_le _,
      hits := hwatch c.hits
      counts := fun i z => by rw [hwin, reset_window]; exact (windowWithin_cleared z).1
      overflows := fun i z => by rw [hwin, reset_window]; exact (windowWithin_cleared z).2 }
  queues h :=
    { rxFifo := by simp [h1], swu := by simp [h2], enu := by simp [h3], vcu := by simp [h4],
      mgu := by simp [h5], requests := by simp [h6], reserved := by simp [h6, hr],
      uplink := by simp [hq, hr], urgent := hw.urgent h.urgent, command := hw.command h.command,
      pass := hw.pass h.pass }

theorem reset_hits (i : Fin 4) : State.reset.watch[i].hits ≤ 255 := by
  simp [State.reset, WatchPoint.cleared]

theorem hardReset_upkeep (s : State) : Upkeep s s.hardReset :=
  .of_reset rfl
    (Works.upholds_cleared (fun z => ⟨0, reset_zone z⟩) reset_run rfl ⟨rfl, rfl⟩ rfl rfl rfl) rfl
    (fun _ => Nat.zero_le _) rfl rfl rfl rfl rfl (fun _ => reset_hits) rfl rfl rfl rfl rfl rfl

theorem poweredOn_upkeep (s : State) : Upkeep s s.poweredOn :=
  .of_reset rfl
    (Works.upholds_cleared (fun z => ⟨0, reset_zone z⟩) reset_run rfl ⟨rfl, rfl⟩ rfl rfl rfl) rfl
    (fun _ => Nat.zero_le _) rfl rfl rfl rfl rfl (fun _ => reset_hits) rfl rfl rfl rfl rfl rfl

theorem softReset_zone (w : Works) (z : ZoneIx) : w.softReset.zone z = (w.zone z).softReset := by
  simp [Works.softReset, Works.zone]

theorem softReset_upkeep (s : State) : Upkeep s s.softReset :=
  .of_reset rfl
    (Works.upholds_cleared (fun z => ⟨_, softReset_zone s.works z⟩) reset_run rfl ⟨rfl, rfl⟩ rfl rfl
      rfl) rfl
    id rfl rfl rfl rfl rfl id rfl rfl rfl rfl rfl rfl

theorem frameSent_upkeep (s : State) : Upkeep s s.frameSent := by
  unfold frameSent
  split
  · exact softReset_upkeep s
  · have k : Steady s.works { s.works with upQueue := s.works.upQueue.tail } :=
      ⟨Upholds.of_same rfl rfl rfl rfl rfl rfl le_rfl le_rfl le_rfl, rfl, rfl, rfl, rfl, rfl,
        (Nat.add_le_add_right (List.tail_sublist _).length_le _).trans⟩
    exact Passes.upkeep { works := k }

/-! ### Every command -/

theorem effect_upkeep (s : State) (c : Instr) : Upkeep s (s.effect c) := by
  have hserve {α : Type} (port : Port) (row : RequestRow) (v : Service α)
      (h : ∀ a u, RequestWork u (v.body a u).1) : Upkeep s (s.serve port row v) :=
    serve_upkeep s port row v fun _ _ a u _ => h a u
  cases c with
  | hardReset => exact hardReset_upkeep s
  | softReset =>
    show Upkeep s (if s.resetLeaving then s.softReset else s)
    split
    · exact softReset_upkeep s
    · exact .refl s
  | fieldArrival frame => exact (arrive_passes s frame).upkeep
  | fclTakeFrame => exact takeFrame_upkeep s
  | fclHandOff => exact (handHeld_passes s).upkeep
  | swuTakeReading => exact (takeSwu_passes s).upkeep
  | join => exact (takeEnu_passes (f := false) s _ _ fun _ _ _ => takeJoin_keeps _ _ _).upkeep
  | sheet => exact (takeEnu_passes (f := false) s _ _ fun _ _ _ => takeSheet_keeps _ _ _).upkeep
  | earlyTraffic =>
    exact (takeEnu_passes (f := false) s _ _ fun w f hit => takeEarly_keeps w f.src hit).upkeep
  | valveAck => exact (takeVcu_passes s).upkeep
  | uplinkFrameReceived frame => exact receive_upkeep s frame
  | uplinkFrameSent => exact frameSent_upkeep s
  | fieldTxHandOff => exact (transmit_passes s).upkeep
  | fieldTxAnswer _ which => exact (txAnswered_passes s which).upkeep
  | answerWaitExpiry => exact (answerWaitOver_passes s).upkeep
  | deviceTimeTick => exact tick_upkeep s
  | silenceDeadline => exact (onRow_passes s _ _ silenceExpiry_keeps).upkeep
  | lossDeadline => exact (onRow_passes s _ _ lossExpiry_keeps).upkeep
  | windowClose nrs => exact windowCloses_upkeep s nrs
  | sheetDeadline => exact (onRow_passes s _ _ sheetExpiry_keeps).upkeep
  | thawDeadline => exact (onRow_passes (n := true) s _ _ thawExpiry_keeps).upkeep
  | alertTimerExpiry => exact (Passes.onWorks (alertExpiry_keeps (n := true) (f := true) _)).upkeep
  | gatherDeadline => exact (onRow_passes (n := true) (f := true) s _ _ gatherDeadline_keeps).upkeep
  | completionDeadline i z => exact (completes_passes s i z).upkeep
  | flowConfirmDeadline =>
    exact (onRow_passes (n := true) (f := true) s _ _ flowConfirmDeadline_keeps).upkeep
  | ackDeadline => exact (onRow_passes (n := true) s _ _ ackDeadline_keeps).upkeep
  | drainDeadline => exact (Passes.onWorks (drainExpiry_keeps (n := true) (f := true) _)).upkeep
  | pulseLeadEnd => exact (Passes.onWorks (leadEnd_keeps (n := true) (f := true) _)).upkeep
  | pulseDriveEnd => exact (Passes.onWorks (driveEnd_keeps (n := true) (f := true) _)).upkeep
  | pulseEnd => exact (Passes.onWorks (tailEnd_keeps (n := true) (f := true) _)).upkeep
  | pulseGapEnd => exact (Passes.onWorks (gapEnd_keeps (n := true) (f := true) _)).upkeep
  | timeRead => exact hserve _ _ _ fun _ u => .refl u
  | timeSet =>
    refine serve_upkeep s _ _ _ fun code args a u h => timeSetBody_work u a ?_
    obtain ⟨q, hq, ha⟩ := Option.bind_eq_some_iff.mp h
    obtain rfl : q = .timeSet a := by
      unfold timeSetService at ha
      dsimp only at ha
      split at ha
      · exact congrArg Req.timeSet (Option.some.inj ha)
      · cases ha
    obtain ⟨_, _, _, _, rfl⟩ := request_timeSet hq
    exact nat32_le _ _ _ _
  | start => exact hserve _ _ _ fun a u => startBody_work u a
  | reset => exact hserve _ _ _ fun _ u => .aside rfl rfl rfl rfl rfl rfl rfl rfl rfl fun _ => id
  | stageWrite => exact hserve _ _ _ fun a u => stageWriteBody_work u a
  | stageRead => exact hserve _ _ _ fun a u => stageReadBody_work u a
  | stageCommit => exact hserve _ _ _ fun a u => stageCommitBody_work u a
  | stageDiscard => exact hserve _ _ _ fun _ u => .aside rfl rfl rfl rfl rfl rfl rfl rfl rfl fun _ => id
  | tableRead => exact hserve _ _ _ fun a u => tableReadBody_work u a
  | nodeRead => exact hserve _ _ _ fun a u => nodeReadBody_work u a
  | nodeProbe => exact hserve _ _ _ fun _ u => .refl u
  | reserve => exact hserve _ _ _ fun a u => reserveBody_work u a
  | assign => exact hserve _ _ _ fun a u => assignBody_work u a
  | release => exact hserve _ _ _ fun a u => releaseBody_work u a
  | restore => exact hserve _ _ _ fun a u => restoreBody_work u a
  | zoneRead => exact hserve _ _ _ fun a u => zoneReadBody_work u a
  | zoneControlIfSet => exact hserve _ _ _ fun a u => zoneControlBody_work u a
  | clearValve => exact hserve _ _ _ fun a u => clearValveBody_work u a
  | runOpen => exact hserve _ _ _ fun a u => runOpenBody_work u a
  | runCancel => exact hserve _ _ _ fun a u => runCancelBody_work u a
  | runRead => exact hserve _ _ _ fun a u => runReadBody_work u a
  | windowRead => exact hserve _ _ _ fun a u => windowReadBody_work u a
  | passSend => exact hserve _ _ _ fun a u => passSendBody_work u a
  | watchSet =>
    refine serve_upkeep s _ _ _ fun code args a u h => watchSetBody_work u a ?_
    obtain ⟨q, _, ha⟩ := Option.bind_eq_some_iff.mp h
    unfold watchSetService at ha
    dsimp only at ha
    split at ha
    · obtain rfl := Option.some.inj ha
      exact Nat.zero_le _
    · cases ha
  | watchClear => exact hserve _ _ _ fun a u => watchSetBody_work u _ (Nat.zero_le _)
  | noticeMask => exact hserve _ _ _ fun a u => noticeMaskBody_work u a
  | statusRead => exact hserve _ _ _ fun a u => statusReadBody_work u a
  | malformedRequest => exact hserve _ _ _ fun _ u => .refl u
  | powerOn => exact poweredOn_upkeep s

/-! ### Every step -/

theorem finish_upkeep (s : State) : Upkeep s s.finish where
  pending := rfl
  works := Upholds.of_same rfl rfl rfl rfl rfl rfl le_rfl le_rfl le_rfl
  windows := id
  counts c := { c with }
  queues h := { h with }

/-- A law that every command keeps, and that the waiting commands have no part in, every step keeps. -/
theorem step_keeps {P : State → Prop} (hpending : ∀ s rest, P s → P { s with pending := rest })
    (hkeeps : ∀ s t, Upkeep s t → P s → P t) (hs : P s) (h : step s = .next t) : P t := by
  obtain rfl | ⟨c, rest, _, rfl⟩ := step_cases h
  · exact hs
  · exact hkeeps _ _ ((effect_upkeep _ c).trans (finish_upkeep _)) (hpending s rest hs)

end State

/-! ### The obligations -/

/-- Settles O3: a close opens the window that was closed, START opens one where none was, and a reset
closes both; the other commands move neither window nor device state. -/
theorem windowsMatchEveryStep : Obligations.WindowsMatchEveryStep := fun _ _ hs h =>
  step_keeps (fun _ _ => id) (fun _ _ k => k.windows) hs h

/-- Settles O4: a queue takes a frame where it has a slot, and a request holds its reply's slot from its
arrival to its reply. -/
theorem queuesWithinEveryStep : Obligations.QueuesWithinEveryStep := fun _ _ hs h =>
  step_keeps (P := QueuesWithin) (fun _ _ q => { q with }) (fun _ _ k => k.queues) hs h

/-- Settles O5: every event of RDP settles what it leaves, and the end of the step unmarks the zones. -/
theorem noWorkInHandEveryStep : Obligations.NoWorkInHandEveryStep := by
  intro s t hs h
  refine ⟨step_keeps (P := fun u => u.works.Idle) (fun _ _ => id) (fun _ _ k => k.works.idle) hs.1 h, ?_⟩
  obtain rfl | ⟨c, rest, _, rfl⟩ := step_cases h
  · exact hs.2
  · rfl

/-- Settles O6: each count is bounded where it is advanced. -/
theorem countsWithinEveryStep : Obligations.CountsWithinEveryStep := fun _ _ hs h =>
  step_keeps (P := CountsWithin) (fun _ _ c => { c with }) (fun _ _ k => k.counts) hs h

/-- Settles O7: an admission fits free capacity, an activation is validated against the staged demands,
and no other work makes a valve draw. -/
theorem capacityLawEveryStep : Obligations.CapacityLawEveryStep := fun _ _ hs h =>
  step_keeps (P := fun u => u.works.Lawful) (fun _ _ => id) (fun _ _ k => k.works.lawful) hs h

/-- Settles O8: the number after FFFFh is 1, and a run keeps the number it was created with. -/
theorem runsNumberedEveryStep : Obligations.RunsNumberedEveryStep := fun _ _ hs h =>
  step_keeps (P := fun u => u.works.RunsNumbered) (fun _ _ => id) (fun _ _ k => k.works.numbers) hs h

/-- Settles O2: a command's outcome is its effect with the step ended. -/
theorem everyCommandCompletes : Obligations.EveryCommandCompletes := fun c s =>
  ⟨(s.effect c).finish, exec_eq_effect c s, (effect_upkeep s c).pending, rfl, rfl⟩

/-- Settles O1. -/
theorem stepRunsFrontCommand : Obligations.StepRunsFrontCommand := by
  refine ⟨fun c s => rfl, fun c rest s h => ?_, fun s h => ?_⟩
  · simp only [step, h]
  · simp only [step, h]

/-- Settles O9: every queue is empty, every valve closed, no run is held and every count is 0. -/
theorem invariantsHoldAtReset : Obligations.InvariantsHoldAtReset := by
  refine ⟨rfl, reset_windowsMatch, reset_queues, ⟨⟨rfl, rfl⟩, rfl⟩, ?_, ⟨fun z => ?_, ?_⟩, ?_⟩
  · exact
      { time := Nat.zero_le _, fieldErrors := Nat.zero_le _, uplinkErrors := Nat.zero_le _,
        hits := reset_hits
        counts := fun i z => by rw [reset_window]; exact (windowWithin_cleared z).1
        overflows := fun i z => by rw [reset_window]; exact (windowWithin_cleared z).2 }
  · rw [reset_zone]
    trivial
  · have hclosed : State.reset.works.zonesWithValve ValveState.admitted = [] :=
      List.filter_eq_nil_iff.mpr fun z _ => by
        simp [reset_zone, Zone.cleared, ValveState.admitted]
    simp [Works.admittedDemand, hclosed, Works.demandSum]
  · exact ⟨by decide, fun i r h => absurd ((reset_run i).symm.trans h) nofun⟩

end Sys2Proof.Machine
end

section
/-! PROOF. The resets, the ports, notices, replies, pulses, and what groups of commands leave alone. -/

namespace Sys2Proof.Machine

open Works State

/-! ### Resets -/

theorem reset_entry (e : EntryIx) : State.reset.works.entry e = Entry.free 0 := by
  simp [State.reset, Works.powerOn, Works.entry]

theorem reset_ctx (c : CtxIx) : State.reset.works.ctx c = none := by
  simp [State.reset, Works.powerOn, Works.ctx]

theorem reset_watch (i : Fin 4) : State.reset.watch[i] = WatchPoint.cleared := by
  simp [State.reset]

theorem reset_fold (i : WinIx) : State.reset.folds[i] = none := by
  simp [State.reset]

theorem reset_mask (k : Fin 18) : State.reset.works.mask[k] = true := by
  simp [State.reset, Works.powerOn]

/-- Settles O10. -/
theorem resetValues : Obligations.ResetValues :=
  ⟨rfl, rfl, rfl, rfl, rfl, rfl, rfl, rfl, rfl, rfl, rfl, reset_mask, reset_entry, reset_zone,
    reset_run, reset_ctx, reset_window, reset_watch⟩

/-- A reset leaves the uplink empty, so at its end the ready line is asserted (R22). -/
theorem finish_urdy_of_empty (s : State) (hq : s.works.upQueue = []) (hr : s.works.reserved = 0)
    (hn : s.requests = []) : s.finish.pins.urdy = true := by
  simp [State.drivenPins, State.ready, Works.freeSlots, hq, hr, hn, Config.readyMargin,
    Config.uplinkCapacity, Config.requestCapacity]

/-- Settles O11: at the end of the step the pins follow the counts, which are 0, and the line, which is
that of power-on unless a pulse runs on. -/
theorem hardResetAndPowerOn : Obligations.HardResetAndPowerOn := by
  intro s
  refine ⟨rfl, rfl, fun t ht => ?_, rfl, fun hp => ?_, fun p hp => ?_⟩
  · obtain h | h := ht
    · rw [exec_next_iff.mp h]
      exact finish_urdy_of_empty _ rfl rfl rfl
    · rw [exec_next_iff.mp h]
      exact finish_urdy_of_empty _ rfl rfl rfl
  · rw [exec_eq_effect]
    simp only [effect, State.hardReset, Works.hardReset, Line.afterReset, hp]
    rfl
  · rw [exec_eq_effect]
    simp only [effect, State.hardReset, Works.hardReset, Line.afterReset, hp]
    rfl

namespace Works

theorem softReset_entry (w : Works) (e : EntryIx) :
    w.softReset.entry e = (w.entry e).softReset w.time (w.returnOf e) := by
  simp [Works.softReset, softRoster, Works.entry, allEntries]

theorem returnOf_eq (w : Works) {e : EntryIx} {c : CtxIx} {x : Ctx} (hc : w.ctxOf e = some c)
    (hx : w.ctx c = some x) : w.returnOf e = x.returnTo := by
  simp [returnOf, hc, hx]

theorem disturbed_iff (x : Zone) : x.disturbed = true ↔ x.auto = true ∨ x.protect = true
    ∨ x.frost ≠ .clear ∨ x.valve ≠ .closed ∨ x.runSlot ≠ none := by
  simp [Zone.disturbed, or_assoc, Option.isSome_iff_ne_none]

/-- An enrolled entry is ACTIVE after a soft reset (R46). -/
theorem softReset_enrolled (n : Entry) (time : Nat) (r : ReturnState) (h : n.state.enrolled = true) :
    n.softReset time r = n.reactivated time := by
  unfold Entry.softReset
  split <;> simp_all [NodeState.enrolled]

end Works

/-- Settles O12: the RESET reply at the head of the uplink queue is what both commands wait for. -/
theorem softResetKeepsAndClears : Obligations.SoftResetKeepsAndClears := by
  intro s reply rest hanswered hqueue hreply
  have hleaving : s.resetLeaving = true := by
    simp [resetLeaving, hanswered, hqueue, hreply]
  have hsoft : exec .softReset s = .next s.softReset.finish := by
    rw [exec_eq_effect]
    simp only [effect, hleaving, if_true]
  have hsent : exec .uplinkFrameSent s = .next s.softReset.finish := by
    rw [exec_eq_effect]
    simp only [effect, frameSent, hleaving, if_true]
  refine ⟨s.softReset.finish, hsoft, hsent, rfl, rfl, rfl, rfl, rfl, rfl, rfl, rfl, rfl, rfl, rfl, rfl,
    rfl, rfl, rfl, rfl, rfl, rfl, rfl, rfl, rfl, rfl, rfl, rfl, rfl, rfl, rfl, rfl, rfl, rfl,
    reset_run, reset_ctx, fun i => ⟨reset_window i, reset_fold i⟩, fun z => ?_, fun p hp => ?_,
    fun hp => ?_, fun e he => ?_, fun e he => ?_, fun e he => ?_, fun e c x he hc hx => ?_⟩
  · have hz : s.softReset.finish.works.zone z = (s.works.zone z).softReset := softReset_zone s.works z
    rw [hz, Zone.softReset]
    simp only [disturbed_iff]
  · show s.works.line.afterReset s.works.site = _
    simp only [Line.afterReset, hp]
  · show s.works.line.afterReset s.works.site = _
    simp only [Line.afterReset, hp]
    rfl
  all_goals
    have hentry : s.softReset.finish.works.entry e =
      (s.works.entry e).softReset s.works.time (s.works.returnOf e) := softReset_entry s.works e
    rw [hentry]
  · rw [softReset_enrolled _ _ _ he]
    rfl
  · simp only [Entry.softReset, he]
  · simp only [Entry.softReset, he]
  · rw [returnOf_eq s.works hc hx]
    cases hr : x.returnTo <;> simp only [Entry.softReset, he]

/-! ### Arrivals and hand-off -/

/-- Settles O13. -/
theorem fieldArrivalTakenOrBusy : Obligations.FieldArrivalTakenOrBusy := by
  intro s
  refine ⟨fun frame h => ?_, fun frame h => ?_, fun frame rest hheld hrx hbad => ?_, fun h hheld =>
    ⟨fun hroom => ?_, fun hfull => ?_⟩⟩
  all_goals rw [exec_eq_effect]
  · have : s.arrive frame = { s with rxFifo := s.rxFifo ++ [frame], arrivalAnswer := some .taken } :=
      if_pos h
    rw [effect, this]
  · have : s.arrive frame =
        { s.onWorks Works.latchFieldOverrun with arrivalAnswer := some .busy } :=
      if_neg (Nat.not_lt.mpr h)
    rw [effect, this]
    rfl
  · simp only [effect, takeFrame, hheld, hrx, classifyFrame, hbad]
    rfl
  · have hslot : s.hasSlot h.block = true := decide_eq_true hroom
    simp only [effect, handHeld, hheld, hslot, if_true]
  · have hslot : s.hasSlot h.block = false := decide_eq_false (Nat.not_lt.mpr hfull)
    simp only [effect, handHeld, hheld, hslot]
    rfl

/-! ### The ports -/

/-- Settles O28. -/
theorem fieldTransmission : Obligations.FieldTransmission := by
  intro s
  refine ⟨fun h => ?_, fun h => ⟨fun f rest hu => ?_, fun f rest hu hc => ?_, fun f rest hu hc hp => ?_,
    fun hu hc hp => ?_⟩, fun a => rfl, fun a => rfl, fun x hx => ⟨fun hdue => ?_, fun hearly => ?_⟩⟩
  all_goals rw [exec_eq_effect]
  · obtain ⟨x, hx⟩ := Option.ne_none_iff_exists'.mp h
    simp only [effect, transmit, hx]
  · simp only [effect, transmit, h, chooseTx, hu]
    rfl
  · simp only [effect, transmit, h, chooseTx, hu, hc]
    rfl
  · simp only [effect, transmit, h, chooseTx, hu, hc, hp]
    rfl
  · simp only [effect, transmit, h, chooseTx, hu, hc, hp]
  · have hreached : s.works.reached x.expiry = true := decide_eq_true hdue
    simp only [effect, answerWaitOver, hx, hreached, if_true]
  · have hreached : s.works.reached x.expiry = false := decide_eq_false (Nat.not_le.mpr hearly)
    simp only [effect, answerWaitOver, hx, hreached]
    rfl

/-- Settles O29. -/
theorem uplinkPortReceivesAndSends : Obligations.UplinkPortReceivesAndSends := by
  intro s frame
  have hcase : exec (.uplinkFrameReceived frame) s = .next (s.receive frame).finish := rfl
  refine ⟨fun hready hgood hkind => ?_, fun hbad => ?_, fun hleaving => ?_⟩
  · rw [hcase, receive, if_pos]
    · rfl
    · simp [hready, hgood, hkind, upRequest]
  · rw [hcase, receive, if_neg]
    · rfl
    · rintro htaken
      simp only [Bool.and_eq_true, beq_iff_eq] at htaken
      obtain ⟨⟨hready, hgood⟩, hkind⟩ := htaken
      obtain h | h | h := hbad
      · exact nomatch h.symm.trans hready
      · exact nomatch h.symm.trans hgood
      · exact h hkind
  · rw [exec_eq_effect]
    simp only [effect, frameSent, hleaving]
    rfl

/-- Settles O31. -/
theorem noticesMaskedQueuedOrLost : Obligations.NoticesMaskedQueuedOrLost := by
  intro w k subject detail
  refine ⟨fun hmasked => ?_, fun henabled hroom => ?_, fun henabled hfull => ?_⟩
  · exact if_neg (by simp [hmasked])
  · rw [notice, if_pos henabled, if_pos hroom]
    rfl
  · rw [notice, if_pos henabled, if_neg (by omega)]
    rfl

/-! ### Replies -/

/-- The items that fit take no more bytes than there are. -/
theorem fitting_length_le (n : Nat) (items : List Bytes) : (fitting n items).flatten.length ≤ n := by
  induction items generalizing n with
  | nil => exact Nat.zero_le n
  | cons i is ih =>
    unfold fitting
    split
    · have hrest := ih (n - i.length)
      rw [List.flatten_cons, List.length_append]
      omega
    · exact Nat.zero_le n

theorem fieldData_length_le (a : Answer) : a.fieldData.length ≤ Config.fieldDataMax := by
  unfold Answer.fieldData
  split
  · rename_i l _
    split
    · rename_i hroom
      have hlist := fitting_length_le (Config.fieldDataMax - (a.items.flatten.length + 1)) l
      rw [List.length_append, counted, List.length_cons]
      omega
    · exact fitting_length_le _ _
  · exact fitting_length_le _ _

namespace Works

theorem submitReply_of_room {w : Works} (h : w.command.length < 16) (dst : NodeId) (p : Bytes) :
    w.submitReply dst p =
      { w with command := w.command ++ [w.composed 0x0B dst p], txSeq := w.txSeq + 1 } := if_pos h

theorem submitReply_of_full {w : Works} (h : 16 ≤ w.command.length) (dst : NodeId) (p : Bytes) :
    w.submitReply dst p = w := if_neg (Nat.not_lt.mpr h)

theorem submitCommand_of_room {w : Works} (h : w.command.length ≤ 14) (kind : Byte) (dst : NodeId)
    (p : Bytes) :
    w.submitCommand kind dst p =
      { w with command := w.command ++ [w.composed kind dst p], txSeq := w.txSeq + 1 } :=
  if_pos (Nat.add_le_add_right h 2)

theorem submitUrgent_of_room {w : Works} (h : w.urgent.length < 8) (kind : Byte) (dst : NodeId)
    (p : Bytes) :
    w.submitUrgent kind dst p =
      { w with urgent := w.urgent ++ [w.composed kind dst p], txSeq := w.txSeq + 1 } := if_pos h

end Works

/-- Settles O49. -/
theorem repliesLeaveByTheirPort : Obligations.RepliesLeaveByTheirPort := by
  intro s t a
  refine ⟨rfl, fun hroom => ?_, fun hfull => ?_, fieldData_length_le a⟩
  · simp only [answer, onWorks, submitReply_of_room hroom]
  · simp only [answer, onWorks, submitReply_of_full hfull]

/-! ### Pulses and the drain -/

theorem beginPulse_busy {w : Works} {p : Pulse} (h : w.line.pulse = some p) : w.beginPulse = w := by
  simp only [beginPulse, h]

/-- A pulse that is requested while another is in progress waits behind those requested (R166). -/
theorem requestPulse_busy {w : Works} {p : Pulse} (h : w.line.pulse = some p) (o : Output) (on : Bool) :
    w.requestPulse o on =
      { w with line := { w.line with waiting := w.line.waiting ++ [{ output := o, on := on }] } } :=
  beginPulse_busy h

/-- A pulse that is requested while none is in progress or waits begins at once (R166). -/
theorem requestPulse_free {w : Works} (h : w.line.pulse = none) (hw : w.line.waiting = []) (o : Output)
    (on : Bool) :
    w.requestPulse o on =
      { w with
        line := { w.line with
          pulse := some { output := o, on := on, lengths := w.site.lengths o, phase := .lead,
                          passed := false },
          waiting := [] } } := by
  simp only [requestPulse, beginPulse, modLine, h, hw]
  rfl

theorem endDrain_busy {w : Works} {p : Pulse} (h : w.line.pulse = some p) :
    w.endDrain = { w with line := { w.line with
      drainDeadline := none, waiting := w.line.waiting ++ [{ output := .drain, on := false }] } } :=
  requestPulse_busy (w := w.modLine fun l => { l with drainDeadline := none }) h .drain false

theorem endDrain_free {w : Works} (h : w.line.pulse = none) (hw : w.line.waiting = []) :
    w.endDrain = { w with line := { w.line with
      drainDeadline := none
      pulse := some { output := .drain, on := false, lengths := w.site.drain, phase := .lead,
                      passed := false }
      waiting := [] } } :=
  requestPulse_free (w := w.modLine fun l => { l with drainDeadline := none }) h hw .drain false

theorem reached_of_le {w : Works} {d : Nat} (h : d ≤ w.time) : w.reached d = true := decide_eq_true h

theorem not_reached_of_lt {w : Works} {d : Nat} (h : w.time < d) : w.reached d = false :=
  decide_eq_false (Nat.not_le.mpr h)

/-- Settles O44. -/
theorem drainDeadlineClosesDrain : Obligations.DrainDeadlineClosesDrain := by
  intro s d hd
  have hexec : exec .drainDeadline s = .next (s.onWorks Works.drainExpiry).finish := rfl
  have hdue (h : d ≤ s.works.time) : s.works.drainExpiry = s.works.endDrain := by
    simp only [drainExpiry, hd, reached_of_le h, if_true]
  refine ⟨fun h p hp => ?_, fun h hp hw => ?_, fun h => ?_⟩
  · rw [hexec, onWorks, hdue h, endDrain_busy hp]
  · rw [hexec, onWorks, hdue h, endDrain_free hp hw, ← hw]
  · rw [hexec, onWorks, drainExpiry, hd]
    simp only [not_reached_of_lt h]
    rfl

theorem coil_of_pulse {l : Line} {p : Pulse} (h : l.pulse = some p) (o : Output) (on : Bool) :
    l.coil o on = (p.phase == .drive && p.output == o && p.on == on) := by
  simp only [Line.coil, h]

/-- Settles O45. -/
theorem pulseLeadAndDrive : Obligations.PulseLeadAndDrive := by
  intro s p hp
  refine ⟨fun hphase => ?_, fun hphase hpassed => ?_, fun hphase hpassed => ?_⟩
  · have hlead : s.works.leadEnd = s.works.setPhase p .drive := by
      simp only [leadEnd, hp, hphase, if_true]
    refine ⟨_, exec_eq_effect _ _, ?_, ?_, by constructor <;> rfl⟩
    · simp only [effect, works_finish, works_onWorks, hlead]
      rfl
    · simp only [effect, works_finish, works_onWorks, hlead]
      simp [setPhase, modLine, coil_of_pulse]
  · have hdrive : s.works.driveEnd = (s.works.setPhase p .tail).believe p.output p.on := by
      simp only [driveEnd, hp, hphase, hpassed, if_true]
      rfl
    refine ⟨_, exec_eq_effect _ _, ?_, ?_, by constructor <;> rfl⟩
    · simp only [effect, works_finish, works_onWorks, hdrive]
      cases ho : p.output <;> simp [believe, setPhase, modLine, ho]
    · intro o on
      simp only [effect, works_finish, works_onWorks, hdrive]
      cases ho : p.output <;> simp [believe, setPhase, modLine, coil_of_pulse]
  · have hdrive : s.works.driveEnd = s.works.setPhase p .tail := by
      simp only [driveEnd, hp, hphase, hpassed, if_true]
    rw [exec_eq_effect, effect, onWorks, hdrive]
    rfl

/-! ### The fold of an empty window -/

/-- Settles O34. -/
theorem foldWithoutSamples : Obligations.FoldWithoutSamples := by
  intro w acc record z
  refine ⟨fun hrecord hnow hempty => ?_, fun hunused => ?_⟩
  · rw [zone_foldWindow, hrecord, hnow, Bool.and_self, if_pos rfl, Zone.fold,
      if_neg (Nat.not_lt.mpr (Nat.le_zero.mpr hempty))]
    cases he : (w.zone z).estimate <;> simp only [Zone.starved, staleQuality, he]
  · rw [zone_foldWindow, if_neg]
    rw [Bool.and_eq_true]
    rintro ⟨hrecord, hnow⟩
    obtain h | h := hunused
    · exact nomatch h.symm.trans hrecord
    · exact nomatch h.symm.trans hnow

/-! ### What groups of commands leave alone -/

namespace State

/-- Work on the shared records, with the step ended, leaves the part around them alone. -/
theorem sameAround_onWorks (s : State) (g : Works → Works) : s.SameAround (s.onWorks g).finish := by
  constructor <;> rfl

theorem sameAround_onRow {α : Type} (s : State) (ix : Option α) (g : Works → α → Works) :
    s.SameAround (s.onRow ix g).finish := by
  cases ix <;> constructor <;> rfl

theorem sameAround_completes (s : State) (i z : Nat) : s.SameAround (s.completes i z).finish := by
  unfold completes
  split <;> constructor <;> rfl

theorem completes_keeps (s : State) (i z : Nat) :
    Keeps true true true s.works (s.completes i z).works := by
  unfold completes
  split
  · exact completionDeadline_keeps _ _ _
  · exact .refl _

/-- What the end of a step leaves of the base records. -/
theorem sameBase_finish {s t : State} (h : s.works.SameBase t.works) :
    s.works.SameBase t.finish.works :=
  ⟨h.device, h.time, h.tables, h.mask, h.reserved, h.fieldErrors, h.uplinkErrors, h.pass⟩

end State

/-- The frame of a command whose effect keeps the nodes. -/
theorem frame_of_keeps {f : Bool} {s t : State} (ha : s.SameAround t.finish)
    (k : Keeps true true f s.works t.works) :
    s.SameAround t.finish ∧ s.works.SameBase t.finish.works ∧ t.finish.works.roster = s.works.roster
      ∧ t.finish.works.ctxs = s.works.ctxs :=
  ⟨ha, sameBase_finish k.sameBase, k.nodes rfl⟩

/-- Settles O47. -/
theorem runCommandsKeepTheRest : Obligations.RunCommandsKeepTheRest := by
  intro s t c hc h
  rw [exec_next_iff.mp h]
  obtain rfl | rfl | rfl | rfl | rfl | rfl | ⟨n, rfl | rfl | rfl | rfl⟩ | ⟨n, m, rfl⟩ := hc
  · exact frame_of_keeps (sameAround_onWorks _ _) (f := true) (alertExpiry_keeps _)
  · exact frame_of_keeps (sameAround_onWorks _ _) (f := true) (drainExpiry_keeps _)
  · exact frame_of_keeps (sameAround_onWorks _ _) (f := true) (leadEnd_keeps _)
  · exact frame_of_keeps (sameAround_onWorks _ _) (f := true) (driveEnd_keeps _)
  · exact frame_of_keeps (sameAround_onWorks _ _) (f := true) (tailEnd_keeps _)
  · exact frame_of_keeps (sameAround_onWorks _ _) (f := true) (gapEnd_keeps _)
  · exact frame_of_keeps (sameAround_onRow _ _ _) (f := true) (onRow_keeps _ _ _ gatherDeadline_keeps)
  · exact frame_of_keeps (sameAround_onRow _ _ _) (f := true)
      (onRow_keeps _ _ _ flowConfirmDeadline_keeps)
  · exact frame_of_keeps (sameAround_onRow _ _ _) (f := false) (onRow_keeps _ _ _ ackDeadline_keeps)
  · exact frame_of_keeps (sameAround_onRow _ _ _) (f := false) (onRow_keeps _ _ _ thawExpiry_keeps)
  · exact frame_of_keeps (sameAround_completes _ _ _) (completes_keeps s n m)

namespace State

/-- ENU's queue after it has taken a frame of a kind, or left one of another kind. -/
theorem takeEnu_queue (s : State) (k : Byte) (g : Works → FieldFrame → Hit → Works) :
    (s.takeEnu k g).enuQueue = s.enuQueue ∨ (s.takeEnu k g).enuQueue = s.enuQueue.tail := by
  unfold takeEnu
  split
  · rename_i h rest hq
    split
    · split
      · exact .inr (by rw [hq]; rfl)
      · exact .inl rfl
    · exact .inl rfl
  · exact .inl rfl

theorem takeEnu_around (s : State) (k : Byte) (g : Works → FieldFrame → Hit → Works) :
    s.SameAround { (s.takeEnu k g).finish with enuQueue := s.enuQueue } := by
  unfold takeEnu
  split
  · split
    · split <;> constructor <;> rfl
    · constructor <;> rfl
  · constructor <;> rfl

theorem takeVcu_queue (s : State) : s.takeVcu.vcuQueue = s.vcuQueue.tail := by
  unfold takeVcu
  split
  · rename_i h rest hq
    rw [hq]
    split <;> rfl
  · rename_i hq
    rw [hq]
    rfl

theorem takeVcu_around (s : State) : s.SameAround { s.takeVcu.finish with vcuQueue := s.vcuQueue } := by
  unfold takeVcu
  split
  · split <;> constructor <;> rfl
  · constructor <;> rfl

end State

/-- Settles O48. -/
theorem nodeCommandsKeepTheRest : Obligations.NodeCommandsKeepTheRest := by
  intro s t c h
  rw [exec_next_iff.mp h]
  have henu (k : Byte) (g : Works → FieldFrame → Hit → Works)
      (hg : ∀ w x y, Keeps true false false w (g w x y)) :
      s.SameAround { (s.takeEnu k g).finish with enuQueue := s.enuQueue }
        ∧ s.works.SameBase (s.takeEnu k g).finish.works
        ∧ ((s.takeEnu k g).finish.enuQueue = s.enuQueue
          ∨ (s.takeEnu k g).finish.enuQueue = s.enuQueue.tail) :=
    ⟨takeEnu_around s k g, sameBase_finish (takeEnu_keeps s k g hg).sameBase, takeEnu_queue s k g⟩
  refine ⟨?_, ?_, ?_⟩
  · rintro ⟨n, rfl | rfl | rfl⟩
    · exact ⟨sameAround_onRow _ _ _,
        sameBase_finish (onRow_keeps (q := true) s _ _ silenceExpiry_keeps).sameBase⟩
    · exact ⟨sameAround_onRow _ _ _,
        sameBase_finish (onRow_keeps (q := true) s _ _ lossExpiry_keeps).sameBase⟩
    · exact ⟨sameAround_onRow _ _ _,
        sameBase_finish (onRow_keeps (q := true) s _ _ sheetExpiry_keeps).sameBase⟩
  · rintro (rfl | rfl | rfl)
    · exact henu _ _ fun _ _ _ => takeJoin_keeps _ _ _
    · exact henu _ _ fun _ _ _ => takeSheet_keeps _ _ _
    · exact henu _ _ fun w x y => takeEarly_keeps w x.src y
  · rintro rfl
    have k := takeVcu_keeps (q := true) (n := true) s
    exact ⟨takeVcu_around s, sameBase_finish k.sameBase, takeVcu_queue s, k.nodes rfl⟩

end Sys2Proof.Machine
end

section
/-! PROOF. Frames: what the part composes passes its own checks (O30), and the frame path from the
receive FIFO through the roster gate (O15 to O18). -/

namespace Sys2Proof.Machine

open Works State

/-! ### Composed frames -/

theorem nat16_be16 {n : Nat} (h : n < 65536) : nat16 (byte (n / 256)) (byte n) = n := by
  unfold nat16 byte
  rw [BitVec.toNat_ofNat, BitVec.toNat_ofNat]
  omega

/-- A node id survives its three bytes. -/
theorem nodeId_beId (i : NodeId) :
    nodeId (byte (i.toNat / 65536)) (byte (i.toNat / 256)) (byte i.toNat) = i := by
  have hi := i.isLt
  refine BitVec.eq_of_toNat_eq ?_
  unfold nodeId nat16 byte
  simp only [BitVec.toNat_ofNat]
  omega

theorem length_sealFrame (bs : Bytes) : (sealFrame bs).length = bs.length + 2 := List.length_append

theorem take_sealFrame (bs : Bytes) : (sealFrame bs).take ((sealFrame bs).length - 2) = bs := by
  rw [length_sealFrame, Nat.add_sub_cancel]
  exact List.take_left

/-- Bytes sealed with their check pass the check. -/
theorem checkGood_sealFrame (bs : Bytes) : checkGood (sealFrame bs) = true := by
  unfold checkGood
  rw [take_sealFrame, length_sealFrame]
  simp

/-- The payload is what stands before the two check bytes. -/
theorem take_payload (payload : Bytes) (a b : Byte) :
    (payload ++ [a, b]).take ((payload ++ [a, b]).length - 2) = payload := by
  have hlen : (payload ++ [a, b]).length - 2 = payload.length := by simp
  rw [hlen]
  exact List.take_left

theorem length_fieldBody (kind : Byte) (dst src : NodeId) (seq : Byte) (payload : Bytes) :
    (fieldBody kind dst src seq payload).length = 10 + payload.length := by
  simp [fieldBody, be16, beId, be24]
  omega

theorem fieldLengthGood_sealed {payload : Bytes} (h : payload.length ≤ 40) (kind : Byte)
    (dst src : NodeId) (seq : Byte) :
    fieldLengthGood (sealFrame (fieldBody kind dst src seq payload)) = true := by
  have hlen : (sealFrame (fieldBody kind dst src seq payload)).length = 12 + payload.length := by
    rw [length_sealFrame, length_fieldBody]
    omega
  have hfield : nat16 (byte ((12 + payload.length) / 256)) (byte (12 + payload.length)) =
      12 + payload.length := nat16_be16 (by omega)
  show (decide (12 ≤ nat16 _ _) && decide (nat16 _ _ ≤ 52) && decide (nat16 _ _ = List.length _)) = true
  simp only [Bool.and_eq_true, decide_eq_true_eq]
  refine ⟨⟨?_, ?_⟩, ?_⟩
  · exact hfield.symm ▸ Nat.le_add_right _ _
  · exact hfield.symm ▸ Nat.add_le_add_left h 12
  · exact hfield.trans hlen.symm

theorem fieldFrame_sealed (kind : Byte) (dst src : NodeId) (seq : Byte) (payload : Bytes) :
    fieldFrame? (sealFrame (fieldBody kind dst src seq payload)) =
      some { kind := kind, dst := dst, src := src, seq := seq, payload := payload } := by
  have h : fieldFrame? (sealFrame (fieldBody kind dst src seq payload)) =
      some { kind := kind
             dst := nodeId (byte (dst.toNat / 65536)) (byte (dst.toNat / 256)) (byte dst.toNat)
             src := nodeId (byte (src.toNat / 65536)) (byte (src.toNat / 256)) (byte src.toNat)
             seq := seq
             payload := (payload ++ be16 (crc16 (fieldBody kind dst src seq payload)).toNat).take
              ((payload ++ be16 (crc16 (fieldBody kind dst src seq payload)).toNat).length - 2) } := rfl
  rw [h, nodeId_beId, nodeId_beId, be16, take_payload]

theorem uplinkFrameGood_sealed {payload : Bytes} (h : payload.length ≤ 250) (kind tag : Byte) :
    uplinkFrameGood (uplinkFrame kind tag payload) = true := by
  have hlen : (uplinkFrame kind tag payload).length = 6 + payload.length := by
    rw [uplinkFrame, length_sealFrame]
    simp [be16]
    omega
  have hfield : nat16 (byte ((6 + payload.length) / 256)) (byte (6 + payload.length)) =
      6 + payload.length := nat16_be16 (by omega)
  show (decide (6 ≤ nat16 _ _) && decide (nat16 _ _ ≤ 256) && decide (nat16 _ _ = List.length _)
    && checkGood (uplinkFrame kind tag payload)) = true
  simp only [Bool.and_eq_true, decide_eq_true_eq]
  refine ⟨⟨⟨?_, ?_⟩, ?_⟩, checkGood_sealFrame _⟩
  · exact hfield.symm ▸ Nat.le_add_right _ _
  · exact hfield.symm ▸ Nat.add_le_add_left h 6
  · exact hfield.trans hlen.symm

/-- Settles O30. -/
theorem composedFramesVerify : Obligations.ComposedFramesVerify := by
  refine ⟨fun w kind dst payload h => ⟨?_, fieldFrame_sealed _ _ _ _ _⟩,
    fun kind tag payload h => ⟨uplinkFrameGood_sealed h kind tag, ?_⟩⟩
  · exact Bool.and_eq_true_iff.mpr ⟨fieldLengthGood_sealed h _ _ _ _, checkGood_sealFrame _⟩
  · have hparse : uplinkFrame? (uplinkFrame kind tag payload) =
        some { kind := kind, tag := tag
               payload := (payload ++ be16 (crc16 (be16 (6 + payload.length) ++ [kind, tag]
                ++ payload)).toNat).take ((payload ++ be16 (crc16 (be16 (6 + payload.length)
                ++ [kind, tag] ++ payload)).toNat).length - 2) } := rfl
    rw [hparse, be16, take_payload]

/-! ### Entries -/

/-- An entry in its new state, with its generation advanced (R26). -/
def Entry.entering (s : NodeState) (f : Entry → Entry) (n : Entry) : Entry :=
  { f n with state := s, gen := (f n).gen + 1 }

namespace Works

/-- Two changes of one entry are one change. -/
theorem modEntry_modEntry (w : Works) (e : EntryIx) (f g : Entry → Entry) :
    (w.modEntry e f).modEntry e g = w.modEntry e (g ∘ f) := by
  have hrow : upd (upd w.roster e f) e g = upd w.roster e (g ∘ f) := by
    simp [upd, Vector.set_set]
  simp only [modEntry, hrow]

theorem nodeTo_eq (w : Works) (e : EntryIx) (s : NodeState) (f : Entry → Entry) :
    w.nodeTo e s f = w.modEntry e (Entry.entering s f) := modEntry_modEntry w e _ _

theorem entry_nodeTo (w : Works) (e : EntryIx) (s : NodeState) (f : Entry → Entry) :
    (w.nodeTo e s f).entry e = (w.entry e).entering s f := by
  rw [nodeTo_eq, entry_modEntry_self]

theorem onlyEntry_modEntry (w : Works) (e : EntryIx) (f : Entry → Entry) :
    w.OnlyEntry (w.modEntry e f) e (f (w.entry e)) :=
  ⟨entry_modEntry_self w e f, fun x hx => by rw [entry_modEntry, if_neg hx], rfl⟩

theorem onlyEntry_nodeTo (w : Works) (e : EntryIx) (s : NodeState) (f : Entry → Entry) :
    w.OnlyEntry (w.nodeTo e s f) e ((w.entry e).entering s f) :=
  nodeTo_eq w e s f ▸ onlyEntry_modEntry w e _

theorem entry_of_roster {u v : Works} (h : v.roster = u.roster) (e : EntryIx) :
    v.entry e = u.entry e := by
  simp only [Works.entry, h]

/-- Work that leaves the nodes alone comes after the change of an entry. -/
theorem OnlyEntry.of_nodes {w v u : Works} {e : EntryIx} {n : Entry} (h : w.OnlyEntry v e n)
    (hu : u.roster = v.roster ∧ u.ctxs = v.ctxs) : w.OnlyEntry u e n :=
  ⟨(entry_of_roster hu.1 e).trans h.1, fun x hx => (entry_of_roster hu.1 x).trans (h.2.1 x hx),
    hu.2.trans h.2.2⟩

/-- A notice reads neither roster nor contexts. -/
theorem notice_withRoster (w : Works) (r : Vector Entry 256) (k : NoticeKind) (subject : Byte)
    (detail : Bytes) :
    ({ w with roster := r }).notice k subject detail = { w.notice k subject detail with roster := r } := by
  unfold notice
  show (if w.mask[k.ix] then if 1 ≤ w.freeSlots then _ else _ else _) = _
  split
  · split <;> rfl
  · rfl

theorem notice_modEntry (w : Works) (e : EntryIx) (f : Entry → Entry) (k : NoticeKind) (subject : Byte)
    (detail : Bytes) :
    (w.modEntry e f).notice k subject detail =
      { w.notice k subject detail with roster := (w.modEntry e f).roster } :=
  notice_withRoster w _ k subject detail

@[simp] theorem roster_notice (w : Works) (k : NoticeKind) (subject : Byte) (detail : Bytes) :
    (w.notice k subject detail).roster = w.roster :=
  ((notice_keeps (q := true) (n := true) (f := true) w k subject detail).nodes rfl).1

/-! ### An entry that has become ACTIVE -/

theorem tellFrost_none (w : Works) : w.tellFrost none = w := rfl

theorem tellDispatcher_none {w : Works} {i : NodeId} (h : w.valveZone? i = none) :
    w.tellDispatcher i = w := by
  simp only [tellDispatcher, h]

/-- The silence deadline of an entry heard now is not reached yet. -/
theorem silenceDeadline_not_reached {w : Works} {n : Entry} (hheard : n.lastHeard = w.time)
    (hinterval : 0 < n.interval) (htime : w.time < 0xFFFFFFFF) :
    w.reached n.silenceDeadline = false := by
  refine not_reached_of_lt ?_
  unfold Entry.silenceDeadline after Config.silenceIntervals
  rw [hheard]
  omega

/-- FRW's and RDP's work on an entry that has become ACTIVE leaves the nodes alone, and an entry heard now
has no deadline to be judged by (R38, R41). -/
theorem nowActive_fresh {w : Works} {e : EntryIx} (hheard : (w.entry e).lastHeard = w.time)
    (hinterval : 0 < (w.entry e).interval) (htime : w.time < 0xFFFFFFFF) :
    w.nowActive e = (w.tellFrost (w.entry e).airZone).tellDispatcher (w.entry e).id := by
  have k : Keeps true true false w ((w.tellFrost (w.entry e).airZone).tellDispatcher (w.entry e).id) :=
    (tellFrost_keeps _ _).trans (tellDispatcher_keeps _ _)
  have hentry := entry_of_roster (k.nodes rfl).1 e
  refine if_neg fun h => ?_
  have hreached := h.2.2
  rw [hentry, silenceDeadline_not_reached (hheard.trans k.time.symm) hinterval (k.time ▸ htime)] at hreached
  cases hreached

theorem nowActive_nodes {w : Works} {e : EntryIx} (hheard : (w.entry e).lastHeard = w.time)
    (hinterval : 0 < (w.entry e).interval) (htime : w.time < 0xFFFFFFFF) :
    (w.nowActive e).roster = w.roster ∧ (w.nowActive e).ctxs = w.ctxs := by
  rw [nowActive_fresh hheard hinterval htime]
  have k : Keeps true true false w ((w.tellFrost (w.entry e).airZone).tellDispatcher (w.entry e).id) :=
    (tellFrost_keeps _ _).trans (tellDispatcher_keeps _ _)
  exact k.nodes rfl

/-- An entry with no air channel in a zone, and of no valve node, hands nothing on. -/
theorem nowActive_alone {w : Works} {e : EntryIx} (hheard : (w.entry e).lastHeard = w.time)
    (hinterval : 0 < (w.entry e).interval) (htime : w.time < 0xFFFFFFFF)
    (hair : (w.entry e).airZone = none) (hvalve : w.valveZone? (w.entry e).id = none) :
    w.nowActive e = w := by
  rw [nowActive_fresh hheard hinterval htime, hair, tellFrost_none, tellDispatcher_none hvalve]

/-- What the source lookup says of an entry it finds (R9). -/
theorem lookup_roster {w : Works} {i : NodeId} {e : EntryIx} {st : NodeState}
    (h : w.lookup i = .roster e st) : (w.entry e).state = st ∧ (w.entry e).id = i := by
  unfold lookup at h
  split at h
  · cases h
  · split at h
    · rename_i x hx
      have hx := List.find?_some hx
      simp only [Bool.and_eq_true, bne_iff_ne, beq_iff_eq] at hx
      cases h
      exact ⟨rfl, hx.2⟩
    · cases h

end Works

end Sys2Proof.Machine
end

section
/-! PROOF. The frame path from the receive FIFO through the watch points, the pass-through and the roster
gate (O15 to O18). -/

namespace Sys2Proof.Machine

open Works State

variable {s : State} {w : Works} {e : EntryIx} {frame : Bytes} {rest : List Bytes} {x : FieldFrame}

/-! ### What FCL changes -/

namespace State

/-- FCL works on the shared records, the frame it holds and the queues of the blocks. -/
def OnlyPath (s t : State) : Prop :=
  t = { s with
    works := t.works, held := t.held, swuQueue := t.swuQueue, enuQueue := t.enuQueue,
    vcuQueue := t.vcuQueue, mguQueue := t.mguQueue }

theorem OnlyPath.refl (s : State) : OnlyPath s s := rfl

theorem OnlyPath.onWorks (s : State) (f : Works → Works) : OnlyPath s (s.onWorks f) := rfl

theorem OnlyPath.trans {t u : State} (a : OnlyPath s t) (b : OnlyPath t u) : OnlyPath s u :=
  Eq.trans b (congrArg (fun v : State => { v with
    works := u.works, held := u.held, swuQueue := u.swuQueue, enuQueue := u.enuQueue,
    vcuQueue := u.vcuQueue, mguQueue := u.mguQueue }) a)

theorem handOff_onlyPath (s : State) (b : Block) (h : HandOff) : OnlyPath s (s.handOff b h) := by
  unfold handOff
  split
  · cases b <;> rfl
  · rfl

theorem toSwu_onlyPath (s : State) (x : FieldFrame) (frame : Bytes) (h : Hit) (r : Option Role) :
    OnlyPath s (s.toSwu x frame h r) := (OnlyPath.onWorks s _).trans (handOff_onlyPath _ _ _)

theorem passGate_onlyPath (s : State) (x : FieldFrame) (frame : Bytes) (e : EntryIx) (h : Hit) :
    OnlyPath s (s.passGate x frame e h) := by
  have g : OnlyPath s { s with works := (s.works.gate e x.seq).1 } := rfl
  unfold passGate
  dsimp only
  split
  · split
    · exact g.trans (toSwu_onlyPath _ _ _ _ _)
    · split <;> exact g.trans (handOff_onlyPath _ _ _)
  · exact g

theorem dispatch_onlyPath (s : State) (x : FieldFrame) (frame : Bytes) (h : Hit) :
    OnlyPath s (s.dispatch x frame h) := by
  have hstray : OnlyPath s (s.stray x frame) := rfl
  unfold dispatch
  split
  · exact handOff_onlyPath _ _ _
  · split
    · unfold dispatchGated
      split
      · split
        · exact toSwu_onlyPath _ _ _ _ _
        · exact hstray
      · exact hstray
      · split
        · exact passGate_onlyPath _ _ _ _ _
        · split
          · exact handOff_onlyPath _ _ _
          · exact hstray
    · exact hstray

theorem classify_onlyPath (s : State) (x : FieldFrame) (frame : Bytes) :
    OnlyPath s (s.classify x frame) := by
  unfold classify
  split
  · rfl
  · split
    · exact dispatch_onlyPath _ _ _ _
    · rfl

/-! ### The frame FCL takes -/

theorem takeFrame_ready (h : s.FclReady frame rest x) :
    s.takeFrame = State.classifyGood { s with rxFifo := rest } x frame := by
  unfold takeFrame
  rw [h.free, h.head]
  simp only [classifyFrame, h.good, if_true, h.fields]

theorem classifyGood_onlyPath (s : State) (x : FieldFrame) (frame : Bytes) :
    OnlyPath (s.watchFrame x frame) (s.classifyGood x frame) := by
  unfold classifyGood
  dsimp only
  split
  · exact classify_onlyPath _ _ _
  · rfl

theorem watchNotice_onlyPath (s : State) (x : FieldFrame) (frame : Bytes) :
    OnlyPath s (s.watchNotice x frame) := by
  unfold watchNotice
  split <;> rfl

/-- A watch point matches when it is armed for the frame's node and kind (R4). -/
theorem watchMatches_iff (p : WatchPoint) (x : FieldFrame) :
    watchMatches p x = true ↔ p.armed = true ∧ (p.id = none ∨ p.id = some x.src ∨ p.id = some x.dst)
      ∧ (p.kind = none ∨ p.kind = some x.kind) := by
  have hid : (match p.id with | some i => i == x.src || i == x.dst | none => true) = true ↔
      (p.id = none ∨ p.id = some x.src ∨ p.id = some x.dst) := by
    cases p.id <;> simp
  have hkind : (match p.kind with | some k => k == x.kind | none => true) = true ↔
      (p.kind = none ∨ p.kind = some x.kind) := by
    cases p.kind <;> simp
  rw [← hid, ← hkind, ← Bool.and_eq_true, ← Bool.and_eq_true, ← Bool.and_assoc]
  rfl

theorem watchMatches_unarmed {p : WatchPoint} (h : p.armed = false) : watchMatches p x = false := by
  unfold watchMatches
  rw [h, Bool.false_and, Bool.false_and]

/-- A frame that no watch point is armed for changes nothing. -/
theorem watchFrame_unwatched (h : s.Unwatched) : s.watchFrame x frame = s := by
  have hpoints : s.hitPoints x = [] := List.filter_eq_nil_iff.mpr fun i _ => by
    rw [watchMatches_unarmed (h i)]
    exact Bool.false_ne_true
  have hmap : mapRows (watchHit x) s.watch = s.watch := by
    refine Vector.ext fun i hi => ?_
    rw [mapRows_at]
    unfold watchHit
    have hno : watchMatches s.watch[i] x = false := watchMatches_unarmed (h ⟨i, hi⟩)
    exact if_neg (by rw [hno]; exact Bool.false_ne_true)
  unfold watchFrame watchNotice
  rw [hpoints, hmap]

theorem takeFrame_unwatched (h : s.FclReady frame rest x) (hu : s.Unwatched) :
    s.takeFrame =
      if s.works.running then State.classify { s with rxFifo := rest } x frame
      else State.onWorks { s with rxFifo := rest } fun w => w.passUp .halted .none frame := by
  have hw : State.watchFrame { s with rxFifo := rest } x frame = { s with rxFifo := rest } :=
    watchFrame_unwatched (s := { s with rxFifo := rest }) hu
  rw [takeFrame_ready h]
  unfold classifyGood
  rw [hw]

end State

namespace Works

theorem passUp_of_room (h : 4 ≤ w.freeSlots) (c : PassCause) (t : Hit) (frame : Bytes) :
    w.passUp c t frame =
      { w with upQueue := w.upQueue ++
          [uplinkFrame upPassUp 0 ([c.code] ++ be32 w.time ++ hitBytes c t ++ frame)] } := if_pos h

theorem passUp_shed (h : w.freeSlots < 4) (c : PassCause) (t : Hit) (frame : Bytes) :
    w.passUp c t frame = w.latchUplinkShed := if_neg (Nat.not_le_of_lt h)

theorem running_iff : w.running = true ↔ w.device = .running := beq_iff_eq

end Works

/-- Settles O15: every other step of FCL's work on a frame leaves the watch points alone. -/
theorem watchPointsCountHits : Obligations.WatchPointsCountHits := by
  intro s frame rest x h
  have hpath := classifyGood_onlyPath { s with rxFifo := rest } x frame
  have hnotice := watchNotice_onlyPath { s with rxFifo := rest } x frame
  refine ⟨s.takeFrame.finish, rfl, ?_, fun i => ?_⟩
  · rw [rxFifo_finish, takeFrame_ready h]
    exact Eq.trans (congrArg State.rxFifo hpath :) (congrArg State.rxFifo hnotice :)
  · have hwatch : s.takeFrame.watch = mapRows (watchHit x) s.watch := by
      rw [takeFrame_ready h]
      exact congrArg State.watch hpath
    have hat : s.takeFrame.finish.watch[i] = watchHit x s.watch[i] := by
      rw [watch_finish, hwatch]
      exact mapRows_at _ _ _ _
    rw [hat]
    exact ite_congr (propext (watchMatches_iff _ x)) (fun _ => rfl) fun _ => rfl

/-- Settles O16. -/
theorem passThroughFramesGoUp : Obligations.PassThroughFramesGoUp := by
  intro s frame rest x cause h hu hcause
  have hup : ∃ c : PassCause, c.code = cause ∧ hitBytes c .none = [0, 0] ∧ s.takeFrame =
      State.onWorks { s with rxFifo := rest } fun w => w.passUp c .none frame := by
    rw [takeFrame_unwatched h hu]
    rcases hcause with ⟨hdev, rfl⟩ | ⟨hdev, hdst, hall, rfl⟩
    · refine ⟨.halted, rfl, rfl, if_neg ?_⟩
      rw [running_iff, hdev]
      decide
    · refine ⟨.foreign, rfl, rfl, ?_⟩
      rw [if_pos (running_iff.mpr hdev)]
      exact if_pos ⟨hdst, hall⟩
  obtain ⟨c, rfl, hhit, htake⟩ := hup
  have hend {w : Works} (hw : s.works.passUp c .none frame = w) :
      exec .fclTakeFrame s = .next (State.finish { s with rxFifo := rest, works := w }) :=
    congrArg (fun t : State => Host.Outcome.next t.finish)
      (htake.trans (congrArg (fun w => ({ s with rxFifo := rest, works := w } : State)) hw))
  refine ⟨fun hroom => hend ?_, fun hfull => hend (passUp_shed hfull _ _ _)⟩
  rw [passUp_of_room hroom, hhit]
  simp only [List.append_assoc]
  rfl

end Sys2Proof.Machine
end

section
/-! PROOF. The roster gate: what it makes of an entry's frame (R33 to R36), a reading of an ACTIVE entry on
its way to SWU (O17), and the frames that the gate and the strays keep from the blocks (O18). -/

namespace Sys2Proof.Machine

open Works State

variable {s : State} {w v : Works} {e : EntryIx} {frame : Bytes} {rest : List Bytes} {x : FieldFrame}
  {n : Entry} {st : NodeState} {seq : Byte}

/-! ### Entries at the gate -/

/-- An entry that has been heard (R34). -/
def Entry.heardAt (time : Nat) (n : Entry) : Entry := { n with lastHeard := time }

/-- An entry that has accepted a sequence (R35). -/
def Entry.sequenced (seq : Byte) (n : Entry) : Entry := { n with lastSeq := some seq }

/-- An entry that has counted a frame (R36). -/
def Entry.counted (n : Entry) : Entry := { n with frames := min (n.frames + 1) 255 }

/-- An entry muted for the window closes of R36. -/
def Entry.muted (n : Entry) : Entry := { n with muteCloses := Config.muteCloses }

namespace Works

theorem OnlyEntry.modEntry (h : w.OnlyEntry v e n) (f : Entry → Entry) :
    w.OnlyEntry (v.modEntry e f) e (f n) :=
  ⟨by rw [entry_modEntry_self, h.1], fun x hx => by rw [entry_modEntry, if_neg hx]; exact h.2.1 x hx,
    h.2.2⟩

theorem OnlyEntry.nodeTo (h : w.OnlyEntry v e n) (s : NodeState) (f : Entry → Entry) :
    w.OnlyEntry (v.nodeTo e s f) e (n.entering s f) :=
  nodeTo_eq v e s f ▸ h.modEntry _

/-- The gate drops a frame of a MUTED or QUARANTINED entry, and a repeat (R33, R34). -/
theorem gate_drops (h : (w.entry e).state = .muted ∨ (w.entry e).state = .quarantined
    ∨ (w.entry e).lastSeq = some seq) :
    w.gate e seq = (w.modEntry e fun n => { n with lastHeard := w.time }, false) := by
  unfold gate
  rcases h with h | h | h
  · rw [h]
  · rw [h]
  · dsimp only
    rw [if_pos h]
    split <;> rfl

/-- Any other frame is accepted and counted (R35, R36). -/
theorem gate_accepts (hm : (w.entry e).state ≠ .muted) (hq : (w.entry e).state ≠ .quarantined)
    (hseq : (w.entry e).lastSeq ≠ some seq) :
    w.gate e seq = ((w.modEntry e (Entry.heardAt w.time)).acceptFrame e seq).countFrame e := by
  unfold gate
  dsimp only
  rw [if_neg hseq]
  split
  · exact absurd (by assumption) hm
  · exact absurd (by assumption) hq
  all_goals rfl

theorem acceptFrame_active (h : (w.entry e).state = .active) (seq : Byte) :
    w.acceptFrame e seq = w.modEntry e (Entry.sequenced seq) := by
  unfold acceptFrame
  rw [h]
  rfl

theorem acceptFrame_silent (h : (w.entry e).state = .silent) (seq : Byte) :
    w.acceptFrame e seq = ((w.modEntry e (Entry.sequenced seq)).nodeTo e .active id).nowActive e := by
  unfold acceptFrame
  rw [h]
  rfl

theorem acceptFrame_lost (h : (w.entry e).state = .lost) (seq : Byte) :
    w.acceptFrame e seq =
      (((w.modEntry e (Entry.sequenced seq)).nodeTo e .active id).notice .nodeBack (byte e.val)
        (((w.modEntry e (Entry.sequenced seq)).nodeTo e .active id).entryItems e)).nowActive e := by
  unfold acceptFrame
  rw [h]
  rfl

/-- The chatter limit is that of the entry's role (R36). -/
theorem chatterLimit_eq (hrole : (v.entry e).role = (w.entry e).role) (htables : v.tables = w.tables) :
    v.chatterLimit e = w.chatterLimit e := by
  simp only [chatterLimit, hrole, htables]

theorem countFrame_eq (w : Works) (e : EntryIx) :
    w.countFrame e =
      if w.chatterLimit e ≠ 0 ∧ w.chatterLimit e < min ((w.entry e).frames + 1) 255 then
        ((w.modEntry e Entry.counted).mute e, false)
      else (w.modEntry e Entry.counted, true) := by
  have hentry : (w.modEntry e Entry.counted).entry e = (w.entry e).counted := entry_modEntry_self _ _ _
  have hlimit : (w.modEntry e Entry.counted).chatterLimit e = w.chatterLimit e :=
    chatterLimit_eq (congrArg Entry.role hentry :) rfl
  have hframes : ((w.modEntry e Entry.counted).entry e).frames = min ((w.entry e).frames + 1) 255 :=
    congrArg Entry.frames hentry
  rw [← hframes, ← hlimit]
  rfl

/-- A counted frame passes within the chatter limit (R36). -/
theorem countFrame_within (h : w.chatterLimit e = 0
    ∨ min ((w.entry e).frames + 1) 255 ≤ w.chatterLimit e) :
    w.countFrame e = (w.modEntry e Entry.counted, true) := by
  rw [countFrame_eq]
  refine if_neg fun hc => ?_
  rcases h with h | h
  · exact hc.1 h
  · exact absurd hc.2 (Nat.not_lt_of_le h)

/-- The frame that crosses the limit mutes the entry (R36). -/
theorem countFrame_over (h0 : w.chatterLimit e ≠ 0)
    (h : w.chatterLimit e < min ((w.entry e).frames + 1) 255) :
    w.countFrame e = ((w.modEntry e Entry.counted).mute e, false) := by
  rw [countFrame_eq, if_pos ⟨h0, h⟩]

theorem mute_eq (w : Works) (e : EntryIx) :
    w.mute e =
      ((w.nodeTo e .muted Entry.muted).notice .nodeMuted (byte e.val)
        ((w.nodeTo e .muted Entry.muted).entryItems e
          ++ [byte ((w.nodeTo e .muted Entry.muted).chatterLimit e)])).tellFrost (w.entry e).airZone :=
  rfl

/-- Muting changes the entry alone among the nodes (R36, R41). -/
theorem onlyEntry_mute (h : w.OnlyEntry v e n) :
    w.OnlyEntry (v.mute e) e (n.entering .muted Entry.muted) := by
  rw [mute_eq]
  exact (h.nodeTo .muted Entry.muted).of_nodes
    (((notice_keeps (q := true) (n := true) (f := false) _ _ _ _).trans (tellFrost_keeps _ _)).nodes rfl)

/-- With no air channel in a zone, muting is the entry's new state and its notice (R36, log 9). -/
theorem mute_alone (h : (w.entry e).airZone = none) :
    w.mute e =
      { w.notice .nodeMuted (byte e.val)
          ([byte e.val] ++ beId (w.entry e).id ++ [byte (w.chatterLimit e)]) with
        roster := (w.nodeTo e .muted Entry.muted).roster } := by
  have hw1 : (w.nodeTo e .muted Entry.muted).entry e = (w.entry e).entering .muted Entry.muted :=
    entry_nodeTo _ _ _ _
  have hitems : (w.nodeTo e .muted Entry.muted).entryItems e
      ++ [byte ((w.nodeTo e .muted Entry.muted).chatterLimit e)] =
      [byte e.val] ++ beId (w.entry e).id ++ [byte (w.chatterLimit e)] := by
    rw [chatterLimit_eq (w := w) (congrArg Entry.role hw1 :) rfl, entryItems, hw1]
    rfl
  rw [mute_eq, h, hitems, tellFrost_none, nodeTo_eq, notice_modEntry]

/-- What the gate makes of an ACTIVE entry's frame within the limit. -/
theorem gate_active_within (ha : (w.entry e).state = .active) (hseq : (w.entry e).lastSeq ≠ some seq)
    (h : w.chatterLimit e = 0 ∨ min ((w.entry e).frames + 1) 255 ≤ w.chatterLimit e) :
    w.gate e seq =
      (w.modEntry e (Entry.counted ∘ Entry.sequenced seq ∘ Entry.heardAt w.time), true) := by
  rw [gate_accepts (by rw [ha]; decide) (by rw [ha]; decide) hseq, acceptFrame_active (by
    rw [entry_modEntry_self]; exact ha), modEntry_modEntry, countFrame_within, modEntry_modEntry]
  have hentry := entry_modEntry_self w e (Entry.sequenced seq ∘ Entry.heardAt w.time)
  rw [chatterLimit_eq (v := w.modEntry e _) (w := w) (congrArg Entry.role hentry :) rfl, hentry]
  exact h

/-! ### The return of a SILENT or LOST entry (R35) -/

/-- An entry back in ACTIVE by a frame with a sequence. -/
def returned (time : Nat) (seq : Byte) (n : Entry) : Entry :=
  ((n.heardAt time).sequenced seq).entering .active id

/-- What the other blocks do on the return leaves the nodes alone. -/
theorem onlyEntry_nowActive (h : w.OnlyEntry v e (returned w.time seq n)) (htime : v.time = w.time)
    (hinterval : 0 < n.interval) (hlast : w.time < 0xFFFFFFFF) :
    w.OnlyEntry (v.nowActive e) e (returned w.time seq n) := by
  refine h.of_nodes (nowActive_nodes ?_ ?_ ?_)
  · rw [h.1, htime]
    rfl
  · rw [h.1]
    exact hinterval
  · rw [htime]
    exact hlast

theorem nowActive_returned (h : v.entry e = returned w.time seq n) (htime : v.time = w.time)
    (htables : v.tables = w.tables) (hinterval : 0 < n.interval) (hlast : w.time < 0xFFFFFFFF)
    (hair : n.airZone = none) (hvalve : w.valveZone? n.id = none) : v.nowActive e = v := by
  have hzone : v.valveZone? (v.entry e).id = w.valveZone? n.id := by
    rw [h]
    unfold valveZone? cfg
    rw [htables]
    rfl
  refine nowActive_alone ?_ ?_ (by rw [htime]; exact hlast) ?_ (hzone.trans hvalve)
  · rw [h, htime]
    rfl
  · rw [h]
    exact hinterval
  · rw [h]
    exact hair

/-- The notice of a return: NODE_BACK for a LOST entry, none for a SILENT one (R35). -/
def backNotice (w : Works) (e : EntryIx) (st : NodeState) : Works :=
  if st = .lost then w.notice .nodeBack (byte e.val) ([byte e.val] ++ beId (w.entry e).id) else w

theorem backNotice_keeps (w : Works) (e : EntryIx) (st : NodeState) :
    Keeps true true true w (w.backNotice e st) := Keeps.ite (notice_keeps _ _ _ _) (.refl _)

/-- The return is a change of the entry, then what is told of it. -/
theorem acceptFrame_back (hst : (w.entry e).state = .silent ∨ (w.entry e).state = .lost) (seq : Byte) :
    (w.modEntry e (Entry.heardAt w.time)).acceptFrame e seq =
      ((w.modEntry e (returned w.time seq)).backNotice e (w.entry e).state).nowActive e := by
  have hheard := entry_modEntry_self w e (Entry.heardAt w.time)
  have hmod : ((w.modEntry e (Entry.heardAt w.time)).modEntry e (Entry.sequenced seq)).nodeTo e .active id =
      w.modEntry e (returned w.time seq) := by
    rw [modEntry_modEntry, nodeTo_eq, modEntry_modEntry]
    rfl
  rcases hst with h | h
  · rw [acceptFrame_silent (by rw [hheard]; exact h), hmod, h]
    rfl
  · rw [acceptFrame_lost (by rw [hheard]; exact h), hmod, h]
    rfl

theorem backNotice_modEntry (w : Works) (e : EntryIx) (seq : Byte) (st : NodeState) :
    (w.modEntry e (returned w.time seq)).backNotice e st =
      { w.backNotice e st with roster := (w.modEntry e (returned w.time seq)).roster } := by
  unfold backNotice
  split
  · rw [notice_modEntry, entry_modEntry_self]
    rfl
  · rfl

/-- The gate on a new frame of a SILENT or LOST entry within the chatter limit: it passes, and the entry
is ACTIVE. -/
theorem gate_back (hst : (w.entry e).state = .silent ∨ (w.entry e).state = .lost)
    (hseq : (w.entry e).lastSeq ≠ some seq)
    (hlimit : w.chatterLimit e = 0 ∨ min ((w.entry e).frames + 1) 255 ≤ w.chatterLimit e)
    (hinterval : 0 < (w.entry e).interval) (hlast : w.time < 0xFFFFFFFF) :
    (w.gate e seq).2 = true
      ∧ w.OnlyEntry (w.gate e seq).1 e (returned w.time seq (w.entry e)).counted
      ∧ ((w.entry e).airZone = none → w.valveZone? (w.entry e).id = none →
          (w.gate e seq).1 =
            { w.backNotice e (w.entry e).state with roster := (w.gate e seq).1.roster }) := by
  have hm : (w.entry e).state ≠ .muted := by rcases hst with h | h <;> rw [h] <;> decide
  have hq : (w.entry e).state ≠ .quarantined := by rcases hst with h | h <;> rw [h] <;> decide
  have hmod : w.OnlyEntry (w.modEntry e (returned w.time seq)) e (returned w.time seq (w.entry e)) :=
    onlyEntry_modEntry w e _
  have ktold := backNotice_keeps (w.modEntry e (returned w.time seq)) e (w.entry e).state
  have htold := hmod.of_nodes (ktold.nodes rfl)
  have hdone := onlyEntry_nowActive htold ktold.time hinterval hlast
  have ktables : (((w.modEntry e (returned w.time seq)).backNotice e (w.entry e).state).nowActive e).tables
      = w.tables :=
    (nowActive_keeps (q := true) _ e).tables.trans ktold.tables
  have hgate : w.gate e seq =
      ((((w.modEntry e (returned w.time seq)).backNotice e (w.entry e).state).nowActive e).modEntry e
        Entry.counted, true) := by
    rw [gate_accepts hm hq hseq, acceptFrame_back hst]
    refine countFrame_within ?_
    rw [chatterLimit_eq (w := w) (congrArg Entry.role hdone.1 :) ktables, hdone.1]
    exact hlimit
  rw [hgate]
  refine ⟨rfl, hdone.modEntry _, fun hair hvalve => ?_⟩
  dsimp only
  rw [nowActive_returned htold.1 ktold.time ktold.tables hinterval hlast hair hvalve,
    backNotice_modEntry]
  rfl

end Works

/-! ### Frames for the part -/

namespace State

theorem takeFrame_forPart (h : s.ForPart frame rest x) :
    s.takeFrame =
      if s.works.sourceValid x.src then
        State.dispatch { s with rxFifo := rest } x frame (s.works.lookup x.src)
      else State.onWorks { s with rxFifo := rest } Works.latchStray := by
  rw [takeFrame_unwatched h.ready h.unwatched, if_pos (running_iff.mpr h.running)]
  refine if_neg fun hc => ?_
  rcases h.dst with hd | hd
  · exact hc.1 hd
  · exact hc.2 hd

/-- A READING, VALVE_ACK or MGMT of an enrolled entry comes to the roster gate (R10, R11). -/
theorem dispatch_gate (hk : x.kind = 0x01 ∨ x.kind = 0x08 ∨ x.kind = 0x0A) (hst : st.enrolled = true) :
    s.dispatch x frame (.roster e st) = s.passGate x frame e (.roster e st) := by
  have hno : ¬(x.kind = kindJoin ∨ x.kind = kindSheet) := by
    rcases hk with h | h | h <;> rw [h] <;> decide
  have hgated : x.kind = kindReading ∨ x.kind = kindValveAck ∨ x.kind = kindMgmt := hk
  unfold dispatch dispatchGated
  rw [if_neg hno, if_pos hgated]
  exact if_pos hst

/-- A frame the gate drops goes no further. -/
theorem passGate_dropped (h : (s.works.gate e x.seq).2 = false) (t : Hit) :
    s.passGate x frame e t = { s with works := (s.works.gate e x.seq).1 } :=
  if_neg (by rw [h]; exact Bool.false_ne_true)

/-- A READING the gate passes goes to SWU. -/
theorem passGate_reading (h : (s.works.gate e x.seq).2 = true) (hk : x.kind = 0x01) (t : Hit) :
    s.passGate x frame e t =
      State.toSwu { s with works := (s.works.gate e x.seq).1 } x frame t
        (some ((s.works.gate e x.seq).1.entry e).role) := by
  have hreading : x.kind = kindReading := hk
  unfold passGate
  dsimp only
  rw [if_pos h, if_pos hreading]

theorem handOff_slot {b : Block} (h : (s.queueOf b).length < 8) (item : HandOff) :
    s.handOff b item = s.pushTo b item := if_pos (decide_eq_true h)

theorem handOff_full {b : Block} (h : 8 ≤ (s.queueOf b).length) (item : HandOff) :
    s.handOff b item = { s with held := some { block := b, item := item } } :=
  if_neg fun hc => absurd (of_decide_eq_true hc) (Nat.not_lt_of_le h)

/-- The copy of a reading to the host (R13). -/
def copied (w : Works) (x : FieldFrame) (frame : Bytes) (t : Hit) : Works :=
  if wantsCopy w x then w.passUp .copy t frame else w

theorem toSwu_eq (s : State) (x : FieldFrame) (frame : Bytes) (t : Hit) (r : Option Role) :
    s.toSwu x frame t r =
      State.handOff { s with works := copied s.works x frame t } .swu
        { frame := frame, hit := t, role := r } := rfl

theorem copied_keeps (w : Works) (x : FieldFrame) (frame : Bytes) (t : Hit) :
    Keeps true true true w (copied w x frame t) := Keeps.ite (passUp_keeps _ _ _ _) (.refl _)

end State

/-- A frame handed to SWU: what stands after the step, in its queue or held while the queue is full. -/
theorem handOff_swu_finish (s : State) (rest : List Bytes) (v : Works) (item : HandOff) :
    let t := (State.handOff { s with rxFifo := rest, works := v } .swu item).finish
    t.works = { v with touched := [] } ∧ t.rxFifo = rest
      ∧ s.SameAround { t with rxFifo := s.rxFifo, swuQueue := s.swuQueue, held := s.held }
      ∧ (s.swuQueue.length < 8 → t.swuQueue = s.swuQueue ++ [item] ∧ t.held = s.held)
      ∧ (8 ≤ s.swuQueue.length →
          t.swuQueue = s.swuQueue ∧ t.held = some { block := .swu, item := item }) := by
  intro t
  have hpath := handOff_onlyPath { s with rxFifo := rest, works := v } .swu item
  have hroom (h : s.swuQueue.length < 8) :
      t = State.finish { s with rxFifo := rest, works := v, swuQueue := s.swuQueue ++ [item] } :=
    congrArg State.finish (handOff_slot (s := { s with rxFifo := rest, works := v }) (b := .swu) h item)
  have hfull (h : 8 ≤ s.swuQueue.length) :
      t = State.finish
        { s with rxFifo := rest, works := v, held := some { block := .swu, item := item } } :=
    congrArg State.finish (handOff_full (s := { s with rxFifo := rest, works := v }) (b := .swu) h item)
  rcases Nat.lt_or_ge s.swuQueue.length 8 with h | h
  · rw [hroom h]
    exact ⟨rfl, rfl, by constructor <;> rfl, fun _ => ⟨rfl, rfl⟩, fun h8 => absurd h (Nat.not_lt_of_le h8)⟩
  · rw [hfull h]
    exact ⟨rfl, rfl, by constructor <;> rfl, fun h8 => absurd h8 (Nat.not_lt_of_le h), fun _ => ⟨rfl, rfl⟩⟩

/-- A READING that passes the gate, on its way to SWU. -/
theorem takeFrame_reading (h : s.ForPart frame rest x) (hk : x.kind = 0x01)
    (hsource : s.works.sourceValid x.src = true) (hlookup : s.works.lookup x.src = .roster e st)
    (hst : st.enrolled = true) (hpass : (s.works.gate e x.seq).2 = true) :
    s.takeFrame =
      State.handOff
        { s with rxFifo := rest, works := copied (s.works.gate e x.seq).1 x frame (.roster e st) } .swu
        { frame := frame, hit := .roster e st, role := some ((s.works.gate e x.seq).1.entry e).role } := by
  rw [takeFrame_forPart h, if_pos hsource, hlookup, dispatch_gate (.inl hk) hst,
    passGate_reading (s := { s with rxFifo := rest }) hpass hk, toSwu_eq]

/-- The classes that ask for a copy are those of the active tables (R13). -/
theorem wantsCopy_tables (h : v.tables = w.tables) : wantsCopy v x = wantsCopy w x := by
  unfold wantsCopy
  rw [h]

theorem copied_plain (h : wantsCopy w x = false) (t : Hit) : copied w x frame t = w :=
  if_neg (by rw [h]; exact Bool.false_ne_true)

theorem copied_asked (h : wantsCopy w x = true) (t : Hit) :
    copied w x frame t = w.passUp .copy t frame := if_pos h

theorem copied_rows (w : Works) (x : FieldFrame) (frame : Bytes) (t : Hit) :
    (copied w x frame t).zones = w.zones ∧ (copied w x frame t).runs = w.runs := by
  unfold copied passUp
  split
  · split <;> exact ⟨rfl, rfl⟩
  · exact ⟨rfl, rfl⟩

/-- The end of a step unmarks the zones and leaves the shared base alone. -/
theorem sameBase_untouched (h : w.SameBase v) : w.SameBase { v with touched := [] } :=
  ⟨h.device, h.time, h.tables, h.mask, h.reserved, h.fieldErrors, h.uplinkErrors, h.pass⟩

/-- Settles O17. -/
theorem activeReadingReachesSwu : Obligations.ActiveReadingReachesSwu := by
  intro s frame rest x e h hk hsource hlookup hseq hlimit
  have hgate := gate_active_within (lookup_roster hlookup).1 hseq hlimit
  generalize hu : s.works.modEntry e
    (Entry.counted ∘ Entry.sequenced x.seq ∘ Entry.heardAt s.works.time) = u at hgate
  have hentry : s.works.OnlyEntry u e
      ((Entry.counted ∘ Entry.sequenced x.seq ∘ Entry.heardAt s.works.time) (s.works.entry e)) :=
    hu ▸ onlyEntry_modEntry _ _ _
  have ku : Keeps true false true s.works u := hu ▸ modEntry_keeps _ _ _
  have kcopied := copied_keeps u x frame (.roster e .active)
  have hrole : (u.entry e).role = (s.works.entry e).role :=
    (congrArg Entry.role hentry.1 :)
  have htake := takeFrame_reading h hk hsource hlookup rfl (congrArg Prod.snd hgate)
  rw [hgate, hrole] at htake
  obtain ⟨hworks, hrx, haround, hroom, hfull⟩ := handOff_swu_finish s rest
    (copied u x frame (.roster e .active))
    { frame := frame, hit := .roster e .active, role := some (s.works.entry e).role }
  rw [← htake] at hworks hrx haround hroom hfull
  have hcopy {v : Works} (hv : copied u x frame (.roster e .active) = v) :
      s.takeFrame.finish.works = { v with touched := [] } := hv ▸ hworks
  have hwants : wantsCopy u x = wantsCopy s.works x := wantsCopy_tables ku.tables
  refine ⟨s.takeFrame.finish, _, rfl, rfl, ?_, ?_, ?_, ?_, haround, hrx,
    fun hlen => ⟨(hroom hlen).1, (hroom hlen).2.trans h.ready.free⟩, hfull, fun hno => ?_,
    fun hyes hfree => ?_, fun hyes hfree => ?_⟩
  · rw [hworks]
    exact hentry.of_nodes (kcopied.nodes rfl)
  · rw [hworks]
    exact sameBase_untouched (ku.trans kcopied.dropNodes).sameBase
  · rw [hworks]
    exact (copied_rows u x frame _).1.trans (hu ▸ rfl)
  · rw [hworks]
    exact (copied_rows u x frame _).2.trans (hu ▸ rfl)
  · have hv := copied_plain (frame := frame) (hwants.trans hno) (.roster e .active)
    rw [hcopy hv, ← hu]
    exact ⟨rfl, rfl⟩
  · have hv := (copied_asked (hwants.trans hyes) (.roster e .active)).trans
      (passUp_of_room (w := u) (by rw [← hu]; exact hfree) .copy (.roster e .active) frame)
    rw [hcopy hv, ← hu]
    exact ⟨rfl, rfl⟩
  · have hv := (copied_asked (hwants.trans hyes) (.roster e .active)).trans
      (passUp_shed (w := u) (by rw [← hu]; exact hfree) .copy (.roster e .active) frame)
    rw [hcopy hv, ← hu]
    exact ⟨rfl, rfl⟩


/-! ### Strays -/

theorem stray_plain (h : x.kind ≠ kindReading ∨ s.works.site.forwardStrays = false) :
    s.stray x frame = s.onWorks Works.latchStray := by
  unfold stray State.onWorks
  dsimp only
  rw [if_neg]
  rintro ⟨hk, hf⟩
  rcases h with h | h
  · exact h hk
  · rw [h] at hf
    cases hf

theorem stray_forwarded (hk : x.kind = kindReading) (hf : s.works.site.forwardStrays = true) :
    s.stray x frame = s.onWorks fun w => w.latchStray.passUp .stray .none frame := by
  unfold stray State.onWorks
  dsimp only
  rw [if_pos ⟨hk, hf⟩]

/-- A READING, VALVE_ACK or MGMT of no source, or of an entry that is not enrolled, is a stray; a READING of
an ENROLLING entry is ENU's instead (R10). -/
theorem dispatch_stray {t : Hit} (hk : x.kind = 0x01 ∨ x.kind = 0x08 ∨ x.kind = 0x0A)
    (ht : t = .none ∨ ∃ e st, t = .roster e st ∧ st.enrolled = false
      ∧ (x.kind = 0x01 → st ≠ .enrolling)) : s.dispatch x frame t = s.stray x frame := by
  have hno : ¬(x.kind = kindJoin ∨ x.kind = kindSheet) := by
    rcases hk with h | h | h <;> rw [h] <;> decide
  have hgated : x.kind = kindReading ∨ x.kind = kindValveAck ∨ x.kind = kindMgmt := hk
  unfold dispatch
  rw [if_neg hno, if_pos hgated]
  rcases ht with rfl | ⟨e, st, rfl, hst, hen⟩
  · rfl
  · unfold dispatchGated
    dsimp only
    rw [if_neg (by rw [hst]; exact Bool.false_ne_true), if_neg fun h => hen h.2 h.1]

theorem dispatch_window_stray {i : Fin 4} {z : ZoneIx} {c : ClassCode}
    (hk : x.kind = 0x08 ∨ x.kind = 0x0A) :
    s.dispatch x frame (.window i z c) = s.stray x frame := by
  have hno : ¬(x.kind = kindJoin ∨ x.kind = kindSheet) := by
    rcases hk with h | h <;> rw [h] <;> decide
  have hgated : x.kind = kindReading ∨ x.kind = kindValveAck ∨ x.kind = kindMgmt := .inr hk
  have hread : x.kind ≠ kindReading := by
    rcases hk with h | h <;> rw [h] <;> decide
  unfold dispatch dispatchGated
  rw [if_neg hno, if_pos hgated]
  exact if_neg hread

theorem dispatch_unknown (hk : x.kind ∉ [0x01, 0x02, 0x03, 0x08, 0x0A]) (t : Hit) :
    s.dispatch x frame t = s.stray x frame := by
  simp only [List.mem_cons, List.not_mem_nil, or_false, not_or] at hk
  obtain ⟨hread, hjoin, hsheet, hack, hmgmt⟩ := hk
  have hfirst : ¬(x.kind = kindJoin ∨ x.kind = kindSheet) := fun h => h.elim hjoin hsheet
  have hgated : ¬(x.kind = kindReading ∨ x.kind = kindValveAck ∨ x.kind = kindMgmt) := fun h =>
    h.elim hread fun h => h.elim hack hmgmt
  unfold dispatch
  rw [if_neg hfirst, if_neg hgated]

/-! ### O18 -/

/-- A frame that the gate drops: the entry is heard, and nothing else changes. -/
theorem takeFrame_dropped (h : s.ForPart frame rest x)
    (hk : x.kind = 0x01 ∨ x.kind = 0x08 ∨ x.kind = 0x0A) (hsource : s.works.sourceValid x.src = true)
    (hlookup : s.works.lookup x.src = .roster e st) (hst : st.enrolled = true)
    (hdrop : (s.works.gate e x.seq).2 = false) :
    s.takeFrame = { s with rxFifo := rest, works := (s.works.gate e x.seq).1 } := by
  rw [takeFrame_forPart h, if_pos hsource, hlookup, dispatch_gate hk hst,
    passGate_dropped (s := { s with rxFifo := rest }) hdrop]

/-- What the gate makes of the frame that crosses the chatter limit of an ACTIVE entry. -/
theorem gate_active_over (ha : (w.entry e).state = .active) (hseq : (w.entry e).lastSeq ≠ some seq)
    (h0 : w.chatterLimit e ≠ 0) (h : w.chatterLimit e < min ((w.entry e).frames + 1) 255) :
    w.gate e seq =
      ((w.modEntry e (Entry.counted ∘ Entry.sequenced seq ∘ Entry.heardAt w.time)).mute e, false) := by
  have hentry := entry_modEntry_self w e (Entry.sequenced seq ∘ Entry.heardAt w.time)
  have hlimit : (w.modEntry e (Entry.sequenced seq ∘ Entry.heardAt w.time)).chatterLimit e =
      w.chatterLimit e := chatterLimit_eq (congrArg Entry.role hentry :) rfl
  rw [gate_accepts (by rw [ha]; decide) (by rw [ha]; decide) hseq, acceptFrame_active (by
    rw [entry_modEntry_self]; exact ha), modEntry_modEntry,
    countFrame_over (by rw [hlimit]; exact h0) (by rw [hlimit, hentry]; exact h), modEntry_modEntry]

/-- The step that mutes an ACTIVE entry (R36). -/
theorem takeFrame_muting (h : s.ForPart frame rest x)
    (hk : x.kind = 0x01 ∨ x.kind = 0x08 ∨ x.kind = 0x0A) (hsource : s.works.sourceValid x.src = true)
    (hlookup : s.works.lookup x.src = .roster e .active)
    (hseq : (s.works.entry e).lastSeq ≠ some x.seq) (h0 : s.works.chatterLimit e ≠ 0)
    (hover : s.works.chatterLimit e < min ((s.works.entry e).frames + 1) 255) :
    ∃ t, exec .fclTakeFrame s = .next t
      ∧ s.works.OnlyEntry t.works e
          { s.works.entry e with
            lastHeard := s.works.time, lastSeq := some x.seq, state := .muted,
            frames := min ((s.works.entry e).frames + 1) 255, muteCloses := 2,
            gen := (s.works.entry e).gen + 1 }
      ∧ s.works.SameBase t.works ∧ s.SameAround { t with rxFifo := s.rxFifo } ∧ t.rxFifo = rest
      ∧ ((s.works.entry e).airZone = none → t.works =
          { s.works.notice .nodeMuted (byte e.val)
              ([byte e.val] ++ beId (s.works.entry e).id ++ [byte (s.works.chatterLimit e)]) with
            roster := t.works.roster, touched := [] }) := by
  have hgate := gate_active_over (lookup_roster hlookup).1 hseq h0 hover
  have htake : s.takeFrame.finish = _ := congrArg State.finish
    (takeFrame_dropped h hk hsource hlookup rfl (congrArg Prod.snd hgate))
  have hworks : s.takeFrame.finish.works = { (s.works.gate e x.seq).1 with touched := [] } :=
    congrArg State.works htake
  rw [hgate] at hworks
  refine ⟨s.takeFrame.finish, rfl, ?_, ?_, ?_, congrArg State.rxFifo htake, fun hair => ?_⟩
  · rw [hworks]
    exact onlyEntry_mute (onlyEntry_modEntry s.works e _)
  · rw [hworks]
    exact sameBase_untouched ((modEntry_keeps (q := true) (f := false) s.works e _).trans
      (mute_keeps _ e)).sameBase
  · rw [htake]
    constructor <;> rfl
  · have hentry := entry_modEntry_self s.works e
      (Entry.counted ∘ Entry.sequenced x.seq ∘ Entry.heardAt s.works.time)
    have hmute := mute_alone (w := s.works.modEntry e
      (Entry.counted ∘ Entry.sequenced x.seq ∘ Entry.heardAt s.works.time)) (e := e)
      (by rw [hentry]; exact hair)
    rw [hworks]
    dsimp only
    rw [hmute, chatterLimit_eq (w := s.works) (congrArg Entry.role hentry :) rfl, hentry, notice_modEntry]
    rfl

/-- The step that brings a SILENT or LOST entry back (R35). -/
theorem takeFrame_back (h : s.ForPart frame rest x) (hk : x.kind = 0x01)
    (hsource : s.works.sourceValid x.src = true) (hlookup : s.works.lookup x.src = .roster e st)
    (hst : st = .silent ∨ st = .lost) (hseq : (s.works.entry e).lastSeq ≠ some x.seq)
    (hlimit : s.works.chatterLimit e = 0
      ∨ min ((s.works.entry e).frames + 1) 255 ≤ s.works.chatterLimit e)
    (hinterval : 0 < (s.works.entry e).interval) (hlast : s.works.time < 0xFFFFFFFF)
    (hroom : s.swuQueue.length < 8) :
    ∃ t, exec .fclTakeFrame s = .next t
      ∧ s.works.OnlyEntry t.works e
          { s.works.entry e with
            lastHeard := s.works.time, lastSeq := some x.seq, state := .active,
            frames := min ((s.works.entry e).frames + 1) 255, gen := (s.works.entry e).gen + 1 }
      ∧ s.works.SameBase t.works
      ∧ s.SameAround { t with rxFifo := s.rxFifo, swuQueue := s.swuQueue } ∧ t.rxFifo = rest
      ∧ t.swuQueue = s.swuQueue ++
          [{ frame := frame, hit := .roster e st, role := some (s.works.entry e).role }]
      ∧ ((s.works.entry e).airZone = none → s.works.valveZone? (s.works.entry e).id = none →
          wantsCopy s.works x = false →
        t.works = { s.works.backNotice e st with roster := t.works.roster, touched := [] }) := by
  obtain ⟨hstate, -⟩ := lookup_roster hlookup
  have henrolled : st.enrolled = true := by rcases hst with rfl | rfl <;> rfl
  obtain ⟨hpass, hentry, halone⟩ := gate_back (by rw [hstate]; exact hst) hseq hlimit hinterval hlast
  have kgate : Keeps true false false s.works (s.works.gate e x.seq).1 := gate_keeps s.works e x.seq
  have htake := takeFrame_reading h hk hsource hlookup henrolled hpass
  generalize (s.works.gate e x.seq).1 = u at hentry halone kgate htake
  have hrole : (u.entry e).role = (s.works.entry e).role := (congrArg Entry.role hentry.1 :)
  rw [hrole] at htake
  have kcopied := copied_keeps u x frame (.roster e st)
  obtain ⟨hworks, hrx, haround, hqueue, -⟩ := handOff_swu_finish s rest
    (copied u x frame (.roster e st))
    { frame := frame, hit := .roster e st, role := some (s.works.entry e).role }
  rw [← htake] at hworks hrx haround hqueue
  refine ⟨s.takeFrame.finish, rfl, ?_, ?_, ?_, hrx, (hqueue hroom).1, fun hair hvalve hno => ?_⟩
  · rw [hworks]
    exact hentry.of_nodes (kcopied.nodes rfl)
  · rw [hworks]
    exact sameBase_untouched (kgate.trans (kcopied.weaken.dropNodes)).sameBase
  · exact { haround with held := (hqueue hroom).2 }
  · have hu := halone hair hvalve
    rw [hstate] at hu
    rw [hworks, copied_plain ((wantsCopy_tables kgate.tables).trans hno)]
    exact congrArg (fun v : Works => { v with touched := [] }) hu

/-- Settles O18. -/
theorem gateFiltersAndStrays : Obligations.GateFiltersAndStrays := by
  intro s frame rest x h
  refine ⟨fun hsource => ⟨fun e st hlookup hst hk => ⟨fun hdrop => ?_, ?_, ?_⟩, fun hk hnone => ?_,
    fun hk => ?_⟩, fun hsource => ?_, rfl⟩
  · obtain ⟨hstate, -⟩ := lookup_roster hlookup
    have hgate := gate_drops (by rw [hstate]; exact hdrop)
    have htake := takeFrame_dropped h hk hsource hlookup hst (congrArg Prod.snd hgate)
    rw [hgate] at htake
    exact congrArg (fun t : State => Host.Outcome.next t.finish) htake
  · rintro rfl hseq h0 hover
    exact takeFrame_muting h hk hsource hlookup hseq h0 hover
  · intro hback hseq hlimit hinterval hlast hreading hroom
    obtain ⟨t, hexec, hentry, hbase, haround, hrx, hqueue, halone⟩ :=
      takeFrame_back h hreading hsource hlookup hback hseq hlimit hinterval hlast hroom
    refine ⟨t, hexec, hentry, hbase, haround, hrx, hqueue, fun hair hvalve hno => ⟨?_, ?_⟩⟩
    · rintro rfl
      exact halone hair hvalve hno
    · rintro rfl
      exact halone hair hvalve hno
  · have hstray : s.takeFrame = State.stray { s with rxFifo := rest } x frame := by
      rw [takeFrame_forPart h, if_pos hsource]
      refine dispatch_stray (.inl hk) (hnone.imp id ?_)
      rintro ⟨e, he⟩
      exact ⟨e, _, he, rfl, fun _ => by decide⟩
    have hend {t : State} (ht : State.stray { s with rxFifo := rest } x frame = t) :
        exec .fclTakeFrame s = .next t.finish :=
      congrArg (fun t : State => Host.Outcome.next t.finish) (hstray.trans ht)
    refine ⟨fun hf => hend (stray_plain (.inr hf)), fun hf hfree => hend ?_, fun hf hfull => hend ?_⟩
    · refine (stray_forwarded (s := { s with rxFifo := rest }) hk hf).trans ?_
      exact congrArg (fun w => ({ s with rxFifo := rest, works := w } : State))
        (passUp_of_room (w := s.works.latchStray) hfree .stray .none frame)
    · refine (stray_forwarded (s := { s with rxFifo := rest }) hk hf).trans ?_
      exact congrArg (fun w => ({ s with rxFifo := rest, works := w } : State))
        (passUp_shed (w := s.works.latchStray) hfull .stray .none frame)
  · have hread : x.kind ≠ kindReading := by
      rcases hk with ⟨hk | hk, -⟩ | hk
      · rw [hk]; decide
      · rw [hk]; decide
      · exact fun hc => hk (hc ▸ by decide)
    have hstray : s.takeFrame = State.stray { s with rxFifo := rest } x frame := by
      rw [takeFrame_forPart h, if_pos hsource]
      rcases hk with ⟨hk, hnone⟩ | hk
      · cases hl : s.works.lookup x.src with
        | window i z c => exact dispatch_window_stray hk
        | none => exact dispatch_stray (.inr hk) (.inl rfl)
        | roster e st =>
          refine dispatch_stray (.inr hk) (.inr ⟨e, st, rfl, hnone e st hl, fun hc => ?_⟩)
          exact absurd hc hread
      · exact dispatch_unknown hk _
    exact congrArg (fun t : State => Host.Outcome.next t.finish)
      (hstray.trans (stray_plain (.inl hread)))
  · refine congrArg (fun t : State => Host.Outcome.next t.finish) ?_
    rw [takeFrame_forPart h, if_neg (by rw [hsource]; exact Bool.false_ne_true)]

end Sys2Proof.Machine
end

section
/-! PROOF. SWU: the readings of a window-path frame (O19) and of a roster-path frame (O20). -/

namespace Sys2Proof.Machine

open Works State

variable {s : State} {w : Works} {e : EntryIx} {z : ZoneIx} {h : HandOff} {rest : List HandOff}
  {x : FieldFrame} {r : Reading} {v : Int}

/-! ### Bounds, calibration and accumulators -/

theorem inside_iff (k : ClassRow) (v : Int) : k.inside v = true ↔ k.lower ≤ v ∧ v ≤ k.upper := by
  unfold ClassRow.inside
  rw [Bool.and_eq_true, decide_eq_true_eq, decide_eq_true_eq]

/-- The default calibration of an uncalibrated channel changes no 16-bit value (R58, R67). -/
theorem calibrate_default {raw : Int} (hl : -32768 ≤ raw) (hu : raw ≤ 32767) :
    calibrate raw 1024 0 = raw := by
  have hq : (raw * (1024 : Nat)).tdiv 1024 = raw := Int.mul_tdiv_cancel raw (by decide)
  unfold calibrate saturate16
  rw [hq]
  omega

theorem windowAdd_open {k : Window} (h : k.isOpen = true) (z : ZoneIx) (v : Int) :
    k.add z v = { k with acc := upd k.acc z fun a => a.add v } := if_pos h

theorem windowAdd_closed {k : Window} (h : k.isOpen = false) (z : ZoneIx) (v : Int) : k.add z v = k :=
  if_neg (by rw [h]; exact Bool.false_ne_true)

theorem accAdd_room {a : Acc} (h : a.count < 255) (v : Int) :
    a.add v = { a with
      count := a.count + 1, sum := a.sum + v, min := some (least a.min v),
      max := some (greatest a.max v) } := if_pos h

theorem accAdd_full {a : Acc} (h : 255 ≤ a.count) (v : Int) :
    a.add v = { a with overflow := min (a.overflow + 1) 65535 } := if_neg (Nat.not_lt_of_le h)

/-- The windows with a sample added to the open one (R70). -/
def sampled (ws : Vector Window 2) (z : ZoneIx) (v : Int) : Vector Window 2 :=
  mapRows (fun k => k.add z v) ws

theorem sampled_at (ws : Vector Window 2) (z : ZoneIx) (v : Int) (i : WinIx) :
    (sampled ws z v)[i] = ws[i].add z v := mapRows_at _ _ _ _

namespace State

theorem accumulate_inUse (h : (s.works.cfg z).inUse = true) (v : Int) :
    s.accumulate (some z) v = { s with windows := sampled s.windows z v } := if_pos h

theorem accumulate_unused {o : Option ZoneIx} (h : ∀ z, o = some z → (s.works.cfg z).inUse = false)
    (v : Int) : s.accumulate o v = s := by
  cases o with
  | none => rfl
  | some z => exact if_neg (by rw [h z rfl]; exact Bool.false_ne_true)

/-! ### The window path -/

theorem takeSwu_head (hq : s.swuQueue = h :: rest) (hx : fieldFrame? h.frame = some x) :
    s.takeSwu = State.takeReading { s with swuQueue := rest } x h.hit := by
  unfold takeSwu
  rw [hq]
  dsimp only
  rw [hx]

theorem takeReading_window {i : Fin 4} {z : ZoneIx} {k : ClassCode} {rs : List Reading} (j : Fin 4)
    (hj : s.works.windowOf? x.src = some j) (hrs : readingList? x.payload = some rs) :
    s.takeReading x (.window i z k) =
      rs.foldl (judgeWindow s.works.tables.windows[j].zone s.works.tables.windows[j].cls x.src) s := by
  unfold takeReading
  dsimp only
  rw [hj]
  dsimp only
  rw [hrs]

theorem takeReading_uncovered {i : Fin 4} {z : ZoneIx} {k : ClassCode}
    (hj : s.works.windowOf? x.src = none) : s.takeReading x (.window i z k) = s := by
  unfold takeReading
  dsimp only
  rw [hj]

theorem judgeWindow_trapped {k : ClassCode} {src : NodeId} (h : r.channel ≠ 0 ∨ r.cls ≠ k.val
    ∨ r.raw < s.works.tables.classes[k].lower ∨ s.works.tables.classes[k].upper < r.raw) :
    s.judgeWindow z k src r = s.onWorks Works.latchBounds := by
  refine if_neg fun hc => ?_
  obtain ⟨hchannel, hcls, hin⟩ := hc
  obtain ⟨hlow, hup⟩ := (inside_iff _ _).mp hin
  rcases h with h | h | h | h
  · exact h hchannel
  · exact h hcls
  · exact absurd h (Int.not_lt.mpr hlow)
  · exact absurd h (Int.not_lt.mpr hup)

theorem judgeWindow_moisture {src : NodeId} (hchannel : r.channel = 0) (hcls : r.cls = 0)
    (hlow : s.works.tables.classes[0].lower ≤ r.raw) (hup : r.raw ≤ s.works.tables.classes[0].upper) :
    s.judgeWindow z 0 src r = s.accumulate (some z) r.raw :=
  (if_pos ⟨hchannel, hcls, (inside_iff _ _).mpr ⟨hlow, hup⟩⟩).trans (if_pos rfl)

end State

/-- Settles O19. -/
theorem windowReadingAccumulates : Obligations.WindowReadingAccumulates := by
  intro s h rest x r ix z₀ k₀ hq hhit hx
  have htake : s.takeSwu = State.takeReading { s with swuQueue := rest } x (.window ix z₀ k₀) :=
    hhit ▸ takeSwu_head hq hx
  have hend {t : State} (ht : State.takeReading { s with swuQueue := rest } x (.window ix z₀ k₀) = t) :
      exec .swuTakeReading s = .next t.finish :=
    congrArg (fun t : State => Host.Outcome.next t.finish) (htake.trans ht)
  refine ⟨fun hnone => hend (takeReading_uncovered (s := { s with swuQueue := rest }) hnone), ?_⟩
  intro j hj hrs row
  have hjudge := takeReading_window (s := { s with swuQueue := rest }) (i := ix) (z := z₀) (k := k₀) j hj hrs
  refine ⟨fun htrap => hend (hjudge.trans ?_), fun i hchannel hcls hrow hlow hup huse hopen => ?_⟩
  · exact judgeWindow_trapped (s := { s with swuQueue := rest }) htrap
  · have hadd : State.takeReading { s with swuQueue := rest } x (.window ix z₀ k₀) =
        { s with swuQueue := rest, windows := sampled s.windows row.zone r.raw } := by
      refine hjudge.trans ?_
      show State.judgeWindow row.zone row.cls x.src { s with swuQueue := rest } r = _
      rw [hrow]
      exact (judgeWindow_moisture (s := { s with swuQueue := rest }) hchannel hcls hlow hup).trans
        (accumulate_inUse (s := { s with swuQueue := rest }) huse r.raw)
    have hacc : (sampled s.windows row.zone r.raw)[i].acc =
        upd s.windows[i].acc row.zone fun a => a.add r.raw := by
      rw [sampled_at, windowAdd_open hopen]
    refine ⟨_, hend hadd, rfl, ?_, rfl, fun j hj => ?_, fun y hy => ?_, fun hroom => ?_, fun hfull => ?_⟩
    · constructor <;> rfl
    · exact (sampled_at _ _ _ j).trans (windowAdd_closed hj _ _)
    · show (sampled s.windows row.zone r.raw)[i].acc[y] = _
      rw [hacc, upd_at, if_neg hy]
    · show (sampled s.windows row.zone r.raw)[i].acc[row.zone] = _
      rw [hacc, upd_at, if_pos rfl, accAdd_room hroom]
      rfl
    · show (sampled s.windows row.zone r.raw)[i].acc[row.zone] = _
      rw [hacc, upd_at, if_pos rfl, accAdd_full hfull]

/-! ### The roster path: good readings -/

namespace Works

/-- Changes that agree on the entry are one. -/
theorem modEntry_congr {f g : Entry → Entry} (h : f (w.entry e) = g (w.entry e)) :
    w.modEntry e f = w.modEntry e g := by
  have hrow : f w.roster[e] = g w.roster[e] := h
  unfold modEntry upd
  rw [hrow]

/-- A good reading kept as the latest value of its channel, the bad streak cleared (R40, R69). -/
def kept (w : Works) (e : EntryIx) (channel : Nat) (c : Channel) (v : Int) : Works :=
  w.modEntry e fun n =>
    { n with channels := n.channels.set channel { c with latest := some v }, badStreak := 0 }

end Works

namespace State

theorem keepLatest_eq {channel : Nat} {c : Channel} (hc : (s.works.entry e).channels[channel]? = some c)
    (v : Int) : s.keepLatest e channel v = { s with works := s.works.kept e channel c v } := by
  have hset : (s.works.entry e).channels.modify channel (fun c => { c with latest := some v }) =
      (s.works.entry e).channels.set channel { c with latest := some v } := by
    rw [List.modify_eq_set_getElem?, hc]
    rfl
  unfold keepLatest goodReading State.onWorks Works.kept
  dsimp only
  rw [modEntry_modEntry]
  refine congrArg (fun w => ({ s with works := w } : State)) (modEntry_congr ?_)
  exact congrArg (fun l => ({ s.works.entry e with channels := l, badStreak := 0 } : Entry)) hset

theorem takeSwu_roster {st : NodeState} {rs : List Reading} (h : s.RosterFrame h rest x e st rs) :
    s.takeSwu = judgeRoster e x.src rs { s with swuQueue := rest } := by
  have hserved : State.stillServed { s with swuQueue := rest } e x.src = true :=
    Bool.and_eq_true_iff.mpr ⟨h.enrolled, beq_iff_eq.mpr h.id⟩
  rw [takeSwu_head h.head h.fields, h.hit]
  unfold takeReading
  dsimp only
  rw [if_pos hserved, h.readings]

theorem goodValue?_good {c : Channel} (hc : (s.works.entry e).channels[r.channel]? = some c)
    (hcls : r.cls = c.cls.val) (hlow : s.works.tables.classes[c.cls].lower ≤ calibrate r.raw c.scale c.offset)
    (hup : calibrate r.raw c.scale c.offset ≤ s.works.tables.classes[c.cls].upper) :
    s.goodValue? e r = some (c.cls, calibrate r.raw c.scale c.offset) := by
  unfold goodValue?
  rw [hc]
  exact if_pos ⟨hcls, (inside_iff _ _).mpr ⟨hlow, hup⟩⟩

theorem judgeRoster_good {src : NodeId} {k : ClassCode} {rs : List Reading}
    (h : s.goodValue? e r = some (k, v)) :
    judgeRoster e src (r :: rs) s =
      judgeRoster e src rs ((s.keepLatest e r.channel v).routeRoster e src k v) := by
  simp only [judgeRoster, h]

theorem routeRoster_moisture (src : NodeId) (v : Int) :
    s.routeRoster e src 0 v = s.accumulate (s.works.entry e).zone v := rfl

theorem routeRoster_air {k : ClassCode} (hk : k = 1 ∨ k = 2) (hz : (s.works.entry e).zone = some z)
    (src : NodeId) (v : Int) :
    s.routeRoster e src k v =
      { s with works :=
          s.works.frostEvent z (k == classAirWet && (s.works.entry e).heard) .reading } := by
  unfold routeRoster
  dsimp only
  rw [hz]
  rcases hk with rfl | rfl <;> rfl

theorem routeRoster_air_unzoned {k : ClassCode} (hk : k = 1 ∨ k = 2)
    (hz : (s.works.entry e).zone = none) (src : NodeId) (v : Int) : s.routeRoster e src k v = s := by
  unfold routeRoster
  dsimp only
  rw [hz]
  rcases hk with rfl | rfl <;> rfl

theorem routeRoster_aux (src : NodeId) (v : Int) : s.routeRoster e src 3 v = s := rfl

theorem routeRoster_flow (src : NodeId) (v : Int) : s.routeRoster e src 4 v = s.routeFlow src v := rfl

theorem routeRoster_valve (src : NodeId) (v : Int) : s.routeRoster e src 5 v = s.routeValve src v := rfl

theorem routeValve_found {src : NodeId} (hz : s.works.valveZone? src = some z) (v : Int) :
    s.routeValve src v = { s with works := s.works.positionReading z v } := by
  unfold routeValve
  rw [hz]
  rfl

theorem routeValve_none {src : NodeId} (hz : s.works.valveZone? src = none) (v : Int) :
    s.routeValve src v = s := by
  unfold routeValve
  rw [hz]

end State

namespace Works

theorem heard_eq (n : Entry) : n.heard = decide (n.state = .active ∨ n.state = .silent) := by
  unfold Entry.heard
  cases n.state <;> rfl

theorem valveZone?_node {src : NodeId} (h : w.valveZone? src = some z) :
    (w.cfg z).inUse = true ∧ (w.cfg z).valveNode = some src := by
  have hz := List.find?_some h
  rw [Bool.and_eq_true, beq_iff_eq] at hz
  exact hz

theorem valveItems_of_node {u : Works} {src : NodeId} (h : w.valveZone? src = some z)
    (htables : u.tables = w.tables) : u.valveItems z = byte z.val :: beId src := by
  have hnode : (u.cfg z).valveNode = some src := by
    unfold cfg
    rw [htables]
    exact (valveZone?_node h).2
  unfold valveItems
  rw [hnode]
  rfl

/-- A position reading that tells nothing new (R159). -/
theorem positionReading_idle (h : v = 0 ∧ (w.zone z).valve ≠ .stuck
    ∨ v = 1 ∧ ((w.zone z).valve ≠ .closed ∨ (w.zone z).cmd ≠ none) ∨ v ≠ 0 ∧ v ≠ 1) :
    w.positionReading z v = w := by
  have hfirst : ¬(v = 0 ∧ (w.zone z).valve = .stuck) := by
    rintro ⟨rfl, hs⟩
    rcases h with h | h | h
    · exact h.2 hs
    · exact absurd h.1 (by decide)
    · exact h.1 rfl
  have hsecond : ¬(v = 1 ∧ (w.zone z).valve = .closed ∧ (w.zone z).cmd = none) := by
    rintro ⟨rfl, hv, hc⟩
    rcases h with h | h | h
    · exact absurd h.1 (by decide)
    · exact h.2.elim (fun k => k hv) fun k => k hc
    · exact h.2 rfl
  exact (if_neg hfirst).trans (if_neg hsecond)

theorem positionReading_cleared {src : NodeId} (hz : w.valveZone? src = some z)
    (h : (w.zone z).valve = .stuck) :
    w.positionReading z 0 =
      (((w.setValve z .closed).rdpEvent offerAdmission).notice .valveCleared (byte z.val)
        ([byte z.val] ++ beId src ++ [0])).protectionPossible z .valve := by
  have hitems : (w.clearStuck z).valveItems z = byte z.val :: beId src :=
    valveItems_of_node hz (clearStuck_keeps (q := true) (n := true) (f := true) w z h).tables
  refine (if_pos ⟨rfl, h⟩).trans ?_
  unfold valveCleared clearDetail
  dsimp only
  rw [hitems]
  rfl

theorem positionReading_fault {src : NodeId} (hz : w.valveZone? src = some z)
    (hv : (w.zone z).valve = .closed) (hc : (w.zone z).cmd = none) :
    w.positionReading z 1 =
      ((w.setValve z .stuck).rdpEvent fun w => w.valveStuck z).notice .valveFault (byte z.val)
        ([byte z.val] ++ beId src ++ [1]) := by
  have k : Keeps true true false w ((w.setValve z .stuck).rdpEvent fun w => w.valveStuck z) :=
    (setValve_keeps w z .stuck (Or.inr (Or.inl (by rw [hv]; decide))) fun h => nomatch h).trans
      (rdpEvent_keeps _ _ (valveStuck_keeps _ z))
  have hitems := valveItems_of_node hz k.tables
  have hfirst : ¬((1 : Int) = 0 ∧ (w.zone z).valve = .stuck) := fun hs => absurd hs.1 (by decide)
  refine ((if_neg hfirst).trans (if_pos ⟨rfl, hv, hc⟩)).trans ?_
  unfold valveFault faultDetail
  dsimp only
  rw [hitems]
  rfl

theorem run_dropFlowDeadlines (w : Works) (i : SlotIx) :
    w.dropFlowDeadlines.run i = (w.run i).map fun r => { r with flowDeadline := none } := mapRows_at _ _ _ _

end Works

namespace Works

/-! ### The roster path: bad readings -/

/-- An entry with one more bad reading in a row (R40). -/
def streaked (n : Entry) : Entry := { n with badStreak := min (n.badStreak + 1) 15 }

/-- The entry of a bad reading turns QUARANTINED (R40, R41). -/
def quarantine (w : Works) (e : EntryIx) (cls : Byte) : Works :=
  ((w.nodeTo e .quarantined Entry.clearLatest).notice .nodeQuarantined (byte e.val)
    ((w.nodeTo e .quarantined Entry.clearLatest).entryItems e ++ [cls])).tellFrost (w.entry e).airZone

theorem badReading_within {channel cls : Nat} (h : w.quarantineLimit e channel cls = 0
    ∨ min ((w.entry e).badStreak + 1) 15 < w.quarantineLimit e channel cls
    ∨ (w.entry e).state ≠ .active ∧ (w.entry e).state ≠ .silent) :
    w.badReading e channel cls = w.modEntry e streaked := by
  have hstreak : ((w.modEntry e streaked).entry e).badStreak = min ((w.entry e).badStreak + 1) 15 := by
    rw [entry_modEntry_self]
    rfl
  refine if_neg fun hc => ?_
  obtain ⟨hne, hle, hheard⟩ := hc
  rcases h with h | h | h
  · exact hne h
  · exact absurd (Nat.le_trans hle (Nat.le_of_eq hstreak)) (Nat.not_le_of_lt h)
  · rw [heard_eq, decide_eq_true_eq] at hheard
    exact hheard.elim h.1 h.2

theorem badReading_over {channel cls : Nat} (h0 : w.quarantineLimit e channel cls ≠ 0)
    (h : w.quarantineLimit e channel cls ≤ min ((w.entry e).badStreak + 1) 15)
    (hst : (w.entry e).state = .active ∨ (w.entry e).state = .silent) :
    w.badReading e channel cls =
      (w.modEntry e streaked).quarantine e (w.quarantineClass e channel cls) := by
  have hstreak : ((w.modEntry e streaked).entry e).badStreak = min ((w.entry e).badStreak + 1) 15 := by
    rw [entry_modEntry_self]
    rfl
  have hheard : (w.entry e).heard = true := by rw [heard_eq, decide_eq_true_eq]; exact hst
  refine (if_pos ⟨h0, Nat.le_trans h (Nat.le_of_eq hstreak.symm), hheard⟩).trans ?_
  unfold quarantine
  rw [entry_modEntry_self]
  rfl

theorem quarantine_keeps (w : Works) (e : EntryIx) (cls : Byte) :
    Keeps true false false w (w.quarantine e cls) :=
  ((nodeTo_keeps w e _ _).trans (notice_keeps _ _ _ _)).trans (tellFrost_keeps _ _)

theorem onlyEntry_quarantine {u : Works} {n : Entry} (h : w.OnlyEntry u e n) (cls : Byte) :
    w.OnlyEntry (u.quarantine e cls) e (n.entering .quarantined Entry.clearLatest) :=
  (h.nodeTo .quarantined Entry.clearLatest).of_nodes
    (((notice_keeps (q := true) (n := true) (f := false) _ _ _ _).trans (tellFrost_keeps _ _)).nodes rfl)

/-- With no air channel in a zone, quarantine is the entry's new state and its notice (R40, log 9). -/
theorem quarantine_alone (h : (w.entry e).airZone = none) (cls : Byte) :
    w.quarantine e cls =
      { w.notice .nodeQuarantined (byte e.val) ([byte e.val] ++ beId (w.entry e).id ++ [cls]) with
        roster := (w.nodeTo e .quarantined Entry.clearLatest).roster } := by
  have hitems : (w.nodeTo e .quarantined Entry.clearLatest).entryItems e =
      [byte e.val] ++ beId (w.entry e).id := by
    unfold entryItems
    rw [entry_nodeTo]
    rfl
  unfold quarantine
  rw [h, hitems, tellFrost_none, nodeTo_eq, notice_modEntry]

theorem quarantineLimit_absent {channel cls : Nat} (h : (w.entry e).channels[channel]? = none) :
    w.quarantineLimit e channel cls =
      match classCode? cls with
      | some k => w.tables.classes[k].quarantine
      | none => 0 := by
  unfold quarantineLimit
  rw [h] <;> rfl

theorem quarantineLimit_of_channel {channel cls : Nat} {c : Channel}
    (h : (w.entry e).channels[channel]? = some c) :
    w.quarantineLimit e channel cls = w.tables.classes[c.cls].quarantine := by
  unfold quarantineLimit
  rw [h]

theorem quarantineClass_absent {channel cls : Nat} (h : (w.entry e).channels[channel]? = none) :
    w.quarantineClass e channel cls = byte cls := by
  unfold quarantineClass
  rw [h]

theorem quarantineClass_of_channel {channel cls : Nat} {c : Channel}
    (h : (w.entry e).channels[channel]? = some c) :
    w.quarantineClass e channel cls = byte c.cls.val := by
  unfold quarantineClass
  rw [h]

end Works

namespace State

theorem goodValue?_absent (h : (s.works.entry e).channels[r.channel]? = none) : s.goodValue? e r = none := by
  unfold goodValue?
  rw [h]

theorem goodValue?_trapped {c : Channel} (hc : (s.works.entry e).channels[r.channel]? = some c)
    (h : r.cls ≠ c.cls.val ∨ calibrate r.raw c.scale c.offset < s.works.tables.classes[c.cls].lower
      ∨ s.works.tables.classes[c.cls].upper < calibrate r.raw c.scale c.offset) :
    s.goodValue? e r = none := by
  unfold goodValue?
  rw [hc]
  refine if_neg fun hg => ?_
  obtain ⟨hcls, hin⟩ := hg
  obtain ⟨hlow, hup⟩ := (inside_iff _ _).mp hin
  rcases h with h | h | h
  · exact h hcls
  · exact absurd h (Int.not_lt.mpr hlow)
  · exact absurd h (Int.not_lt.mpr hup)

theorem judgeRoster_bad {src : NodeId} {more : List Reading} (h : s.goodValue? e r = none)
    (hlast : more = [] ∨ ((s.works.latchBounds.badReading e r.channel r.cls).entry e).state = .quarantined
      ∧ (s.works.entry e).state ≠ .quarantined) :
    judgeRoster e src (r :: more) s = s.onWorks fun w => w.latchBounds.badReading e r.channel r.cls := by
  unfold judgeRoster
  rw [h]
  dsimp only
  rcases hlast with rfl | hlast
  · exact ite_self _
  · exact if_pos hlast

/-- A trapped reading, with the limit and the class it is held to (R40, R65, R68). -/
theorem trapped_held_to {limit : Nat} {cls : Byte}
    (hwhy : (s.works.entry e).channels[r.channel]? = none
        ∧ limit = (match classCode? r.cls with
            | some k => s.works.tables.classes[k].quarantine
            | none => 0)
        ∧ cls = byte r.cls
      ∨ (∃ c, (s.works.entry e).channels[r.channel]? = some c
        ∧ (r.cls ≠ c.cls.val
          ∨ calibrate r.raw c.scale c.offset < s.works.tables.classes[c.cls].lower
          ∨ s.works.tables.classes[c.cls].upper < calibrate r.raw c.scale c.offset)
        ∧ limit = s.works.tables.classes[c.cls].quarantine ∧ cls = byte c.cls.val)) :
    State.goodValue? { s with swuQueue := rest } e r = none
      ∧ s.works.latchBounds.quarantineLimit e r.channel r.cls = limit
      ∧ s.works.latchBounds.quarantineClass e r.channel r.cls = cls := by
  rcases hwhy with ⟨hc, rfl, rfl⟩ | ⟨c, hc, htrap, rfl, rfl⟩
  · exact ⟨goodValue?_absent (s := { s with swuQueue := rest }) hc,
      quarantineLimit_absent (w := s.works.latchBounds) hc,
      quarantineClass_absent (w := s.works.latchBounds) hc⟩
  · exact ⟨goodValue?_trapped (s := { s with swuQueue := rest }) hc htrap,
      quarantineLimit_of_channel (w := s.works.latchBounds) hc,
      quarantineClass_of_channel (w := s.works.latchBounds) hc⟩

end State

/-- A good reading is kept, then goes by its class (R69 to R74). -/
theorem exec_goodReading {st : NodeState} {c : Channel} {t : State}
    (hframe : s.RosterFrame h rest x e st [r]) (hc : (s.works.entry e).channels[r.channel]? = some c)
    (hcls : r.cls = c.cls.val) (hv : v = calibrate r.raw c.scale c.offset)
    (hlow : s.works.tables.classes[c.cls].lower ≤ v) (hup : v ≤ s.works.tables.classes[c.cls].upper)
    (ht : State.routeRoster { s with swuQueue := rest, works := s.works.kept e r.channel c v } e x.src
      c.cls v = t) : exec .swuTakeReading s = .next t.finish := by
  subst hv
  refine congrArg (fun t : State => Host.Outcome.next t.finish) ((takeSwu_roster hframe).trans ?_)
  rw [judgeRoster_good (goodValue?_good (s := { s with swuQueue := rest }) hc hcls hlow hup),
    keepLatest_eq (s := { s with swuQueue := rest }) hc]
  exact ht

theorem entry_kept (w : Works) (e : EntryIx) (channel : Nat) (c : Channel) (v : Int) :
    (w.kept e channel c v).entry e =
      { w.entry e with
        channels := (w.entry e).channels.set channel { c with latest := some v }, badStreak := 0 } :=
  entry_modEntry_self _ _ _

theorem zone_kept (w : Works) (e : EntryIx) (channel : Nat) (c : Channel) (v : Int) :
    ((w.kept e channel c v).entry e).zone = (w.entry e).zone :=
  (congrArg Entry.zone (entry_kept w e channel c v) :)

/-- A flow reading: what it does to the latch and to the deadlines of the runs (R164). -/
theorem flowReading_effect (w : Works) (v : Int) :
    (w.flowReading v).zones = w.zones
      ∧ (w.flowReading v).latches.leak = (w.latches.leak || decide (0 < w.site.leakLimit
          ∧ w.line.state = .idle ∧ (w.site.leakLimit : Int) < v))
      ∧ ∀ i, (w.flowReading v).run i = (w.run i).map fun r =>
          if ((w.admittedDemand / 2 : Nat) : Int) ≤ v then { r with flowDeadline := none } else r := by
  have hnotice (u : Works) (k : NoticeKind) (b : Byte) (d : Bytes) :
      (u.notice k b d).zones = u.zones ∧ (u.notice k b d).runs = u.runs
        ∧ (u.notice k b d).latches.leak = u.latches.leak := by
    unfold notice
    split
    · split <;> exact ⟨rfl, rfl, rfl⟩
    · exact ⟨rfl, rfl, rfl⟩
  have hleak (u : Works) : (u.leakCheck v).zones = u.zones ∧ (u.leakCheck v).runs = u.runs
      ∧ (u.leakCheck v).latches.leak = (u.latches.leak || decide (0 < u.site.leakLimit
          ∧ u.line.state = .idle ∧ (u.site.leakLimit : Int) < v)) := by
    unfold leakCheck
    split
    · rename_i hc
      obtain ⟨hz, hr, hl⟩ := hnotice u.latchLeak .leak 0
        (signed16 v ++ be16 u.site.leakLimit ++ be32 u.time)
      refine ⟨hz, hr, hl.trans ?_⟩
      rw [decide_eq_true hc, Bool.or_true]
      rfl
    · rename_i hc
      rw [decide_eq_false hc, Bool.or_false]
      exact ⟨rfl, rfl, rfl⟩
  unfold flowReading
  dsimp only
  split
  · obtain ⟨hz, hr, hl⟩ := hleak w.dropFlowDeadlines
    refine ⟨hz, hl, fun i => ?_⟩
    rw [← run_dropFlowDeadlines]
    exact congrArg (fun rs : Vector (Option Run) 12 => rs[i]) hr
  · obtain ⟨hz, hr, hl⟩ := hleak w
    refine ⟨hz, hl, fun i => ?_⟩
    rw [Option.map_id']
    exact congrArg (fun rs : Vector (Option Run) 12 => rs[i]) hr


end Sys2Proof.Machine
end

section
/-! PROOF. ENU: JOINs (O21, O22), sheets (O23, O24), how an exchange ends (O25), and the deadlines of a
heard entry (O26). -/

namespace Sys2Proof.Machine

open Works State

variable {s : State} {w u v : Works} {e : EntryIx} {c : CtxIx} {h : HandOff} {rest : List HandOff}
  {f : FieldFrame} {x : Ctx} {n : Entry}

/-! ### Indices as their bytes name them -/

theorem entryIx?_val (e : EntryIx) : entryIx? e.val = some e := dif_pos e.isLt

theorem ctxIx?_val (c : CtxIx) : ctxIx? c.val = some c := dif_pos c.isLt

theorem zoneIx?_val (z : ZoneIx) : zoneIx? z.val = some z := dif_pos z.isLt

theorem slotIx?_val (i : SlotIx) : slotIx? i.val = some i := dif_pos i.isLt

theorem fin4?_val (i : Fin 4) : fin4? i.val = some i := dif_pos i.isLt

/-! ### A frame ENU takes -/

theorem exec_takeEnu {k : Byte} {g : Works → FieldFrame → Hit → Works} (hq : s.enuQueue = h :: rest)
    (hf : fieldFrame? h.frame = some f) (hk : f.kind = k) (hw : g s.works f h.hit = w) :
    s.takeEnu k g = { s with enuQueue := rest, works := w } := by
  subst hw
  unfold takeEnu
  rw [hq]
  dsimp only
  rw [hf]
  exact if_pos hk

theorem sameAround_enu (s : State) (rest : List HandOff) (w : Works) :
    s.SameAround { State.finish { s with enuQueue := rest, works := w } with enuQueue := s.enuQueue } := by
  constructor <;> rfl

/-- The entry of an accepted JOIN (R52). -/
def Entry.enrolling (n : Entry) : Entry :=
  { n.clearLatest with lastSeq := none, frames := 0, muteCloses := 0, badStreak := 0 }

namespace Works

/-! ### Contexts -/

theorem onlyCtx_setCtx (w : Works) (c : CtxIx) (o : Option Ctx) : w.OnlyCtx (w.setCtx c o) c o :=
  ⟨ctx_setCtx_self w c o, fun d hd => by rw [ctx_setCtx, if_neg hd]⟩

theorem ctx_of_ctxs (h : v.ctxs = u.ctxs) (c : CtxIx) : v.ctx c = u.ctx c := by
  unfold ctx
  rw [h]

/-- Work that leaves the contexts alone comes after a change of one. -/
theorem OnlyCtx.of_ctxs {o : Option Ctx} (h : w.OnlyCtx u c o) (hv : v.ctxs = u.ctxs) : w.OnlyCtx v c o :=
  ⟨(ctx_of_ctxs hv c).trans h.1, fun d hd => (ctx_of_ctxs hv d).trans (h.2 d hd)⟩

/-- The later change of one context counts. -/
theorem OnlyCtx.setCtx {o : Option Ctx} (h : w.OnlyCtx u c o) (o' : Option Ctx) :
    w.OnlyCtx (u.setCtx c o') c o' :=
  ⟨ctx_setCtx_self u c o', fun d hd => by rw [ctx_setCtx, if_neg hd]; exact h.2 d hd⟩

/-- The context that serves an entry names it (R48). -/
theorem ctxOf_entry (h : w.ctxOf e = some c) (hx : w.ctx c = some x) : x.entry = e := by
  have hfound := List.find?_some h
  rw [hx] at hfound
  exact beq_iff_eq.mp hfound

/-! ### JOINs -/

theorem takeJoin_of_source {src : NodeId} {payload : Bytes} {j : Join} (hj : join? payload = some j)
    (hsource : w.sourceValid src = true) :
    w.takeJoin src payload =
      match w.lookup src with
      | .window _ _ _ => w.refuse src .windowed
      | .none => if w.tables.roles[j.role.ix].allowed then w.joinUnknown src j else w.refuse src .role
      | .roster e s =>
        if w.tables.roles[j.role.ix].allowed then w.joinByState e s src j else w.refuse src .role := by
  unfold takeJoin
  rw [hj]
  dsimp only
  rw [hsource]
  rfl

/-- A JOIN that a RESERVED entry's checks let through is accepted (R51). -/
theorem joinReserved_accepts {src : NodeId} {j : Join} (hpolicy : w.site.policy ≠ .closed)
    (hrole : j.role = (w.entry e).role) (hfree : w.freeCtx? = some c) :
    w.joinReserved e src j = w.acceptJoin c e .reserved id none j := by
  unfold joinReserved
  rw [if_neg hpolicy, if_neg (not_not.mpr hrole), hfree]

/-- COMMAND with one frame more (R15, R16). -/
def commanded (w : Works) (kind : Byte) (dst : NodeId) (payload : Bytes) : Works :=
  { w with command := w.command ++ [w.composed kind dst payload], txSeq := w.txSeq + 1 }

@[simp] theorem roster_commanded (w : Works) (k : Byte) (dst : NodeId) (p : Bytes) :
    (w.commanded k dst p).roster = w.roster := rfl

@[simp] theorem ctxs_commanded (w : Works) (k : Byte) (dst : NodeId) (p : Bytes) :
    (w.commanded k dst p).ctxs = w.ctxs := rfl

@[simp] theorem zones_commanded (w : Works) (k : Byte) (dst : NodeId) (p : Bytes) :
    (w.commanded k dst p).zones = w.zones := rfl

@[simp] theorem runs_commanded (w : Works) (k : Byte) (dst : NodeId) (p : Bytes) :
    (w.commanded k dst p).runs = w.runs := rfl

@[simp] theorem ctxs_nodeTo (w : Works) (e : EntryIx) (s : NodeState) (f : Entry → Entry) :
    (w.nodeTo e s f).ctxs = w.ctxs := rfl

@[simp] theorem zones_nodeTo (w : Works) (e : EntryIx) (s : NodeState) (f : Entry → Entry) :
    (w.nodeTo e s f).zones = w.zones := rfl

@[simp] theorem runs_nodeTo (w : Works) (e : EntryIx) (s : NodeState) (f : Entry → Entry) :
    (w.nodeTo e s f).runs = w.runs := rfl

theorem submitCommand_commanded (h : w.command.length ≤ 14) (kind : Byte) (dst : NodeId) (p : Bytes) :
    w.submitCommand kind dst p = w.commanded kind dst p := submitCommand_of_room h kind dst p

/-- Acceptance of a continuing JOIN of an entry with no air channel, with room for its ACCEPT (R52, R54). -/
theorem acceptJoin_quiet {j : Join} (hair : (w.entry e).airZone = none) (hcont : j.continues = true)
    (hroom : w.command.length ≤ 14) :
    w.acceptJoin c e .reserved id none j =
      ((((w.setCtx c (some (w.filledCtx e .reserved j false))).nodeTo e .enrolling
          Entry.enrolling).commanded kindAccept (w.entry e).id
            (be16 (w.clampInterval j.role j.interval))).setCtx c
        (some { w.filledCtx e .reserved j false with
          deadline := some (after w.time Config.sheetWait) })) := by
  have hbegin : (w.setCtx c (some (w.filledCtx e .reserved j false))).beginEnrolling e id =
      (w.setCtx c (some (w.filledCtx e .reserved j false))).nodeTo e .enrolling Entry.enrolling := by
    unfold beginEnrolling
    show Works.tellFrost _ (w.entry e).airZone = _
    rw [hair]
    rfl
  have hid : (((w.setCtx c (some (w.filledCtx e .reserved j false))).nodeTo e .enrolling
      Entry.enrolling).entry e).id = (w.entry e).id := by
    rw [entry_nodeTo]
    rfl
  unfold acceptJoin
  dsimp only
  rw [hbegin]
  unfold sendAccept afterAccept
  rw [if_pos hcont, submitCommand_commanded (by exact hroom)]
  show Works.setCtx (Works.commanded _ _ (Entry.id (Works.entry _ e)) _) _ _ = _
  rw [hid]
  rfl

end Works

/-- Settles O21. -/
theorem reservedJoinOpensExchange : Obligations.ReservedJoinOpensExchange := by
  intro s h rest f j e c hq hf hk hj hsource hlookup hstate hid hchannels hallowed hpolicy hrole hfree hcont
    hroom
  have hair : (s.works.entry e).airZone = none := by
    unfold Entry.airZone
    rw [hchannels]
    rfl
  have hjoin : s.works.takeJoin f.src f.payload = s.works.acceptJoin c e .reserved id none j := by
    rw [takeJoin_of_source hj hsource, hlookup]
    dsimp only
    rw [if_pos hallowed]
    exact joinReserved_accepts hpolicy hrole hfree
  rw [acceptJoin_quiet hair hcont hroom, hid] at hjoin
  have k := takeJoin_keeps (q := true) s.works f.src f.payload
  rw [hjoin] at k
  have hentry := onlyEntry_nodeTo (s.works.setCtx c (some (s.works.filledCtx e .reserved j false))) e
    .enrolling Entry.enrolling
  have hcleared : (s.works.entry e).clearLatest = s.works.entry e := by
    unfold Entry.clearLatest
    rw [hchannels]
    exact congrArg (fun l => { s.works.entry e with channels := l }) hchannels.symm
  generalize hv : Works.setCtx _ c _ = v at hjoin k
  have htake := exec_takeEnu (g := fun w f _ => w.takeJoin f.src f.payload) hq hf hk hjoin
  have hroster : v.roster = ((s.works.setCtx c (some (s.works.filledCtx e .reserved j false))).nodeTo e
      .enrolling Entry.enrolling).roster := by simp [← hv]
  have hctx : s.works.OnlyCtx v c (some { s.works.filledCtx e .reserved j false with
      deadline := some (after s.works.time Config.sheetWait) }) :=
    hv ▸ ((onlyCtx_setCtx s.works c (some (s.works.filledCtx e .reserved j false))).of_ctxs
      (by rw [ctxs_commanded, ctxs_nodeTo])).setCtx _
  have hzones : v.zones = s.works.zones := by simp [← hv]
  have hruns : v.runs = s.works.runs := by simp [← hv]
  refine ⟨_, congrArg (fun t : State => Host.Outcome.next t.finish) htake, ?_, fun y hy => ?_,
    hctx, ?_, ?_, sameBase_untouched k.sameBase, hzones, hruns, sameAround_enu _ _ _, rfl⟩
  · refine ((entry_of_roster hroster e).trans hentry.1).trans ?_
    show Entry.entering .enrolling Entry.enrolling (s.works.entry e) = _
    unfold Entry.entering Entry.enrolling
    rw [hcleared]
  · exact (entry_of_roster hroster y).trans (hentry.2.1 y hy)
  · rw [← hv]
    rfl
  · rw [← hv]
    rfl

/-- A REFUSE that COMMAND has room for (R62). -/
theorem refuse_of_room {r : RefuseReason} (hroom : w.command.length ≤ 14) (src : NodeId) :
    w.refuse src r = w.commanded kindRefuse src [r.code] := submitCommand_commanded hroom _ _ _

/-- Settles O22. -/
theorem joinRefused : Obligations.JoinRefused := by
  intro s h rest f j reason hq hf hk hj hsource hwhy hroom
  have hrefused : ∃ r : RefuseReason, r.code = reason ∧
      s.works.takeJoin f.src f.payload = s.works.refuse f.src r := by
    rw [takeJoin_of_source hj hsource]
    rcases hwhy with ⟨hlookup, hallowed, ⟨hpolicy, rfl⟩ | ⟨hpolicy, rfl⟩⟩ | ⟨⟨ix, z, k, hlookup⟩, rfl⟩
    · refine ⟨.closed, rfl, ?_⟩
      rw [hlookup]
      dsimp only
      rw [if_pos hallowed, joinUnknown, hpolicy]
    · refine ⟨.notListed, rfl, ?_⟩
      rw [hlookup]
      dsimp only
      rw [if_pos hallowed, joinUnknown, hpolicy]
    · refine ⟨.windowed, rfl, ?_⟩
      rw [hlookup]
  obtain ⟨r, rfl, hjoin⟩ := hrefused
  have htake := exec_takeEnu (g := fun w f _ => w.takeJoin f.src f.payload) hq hf hk
    (hjoin.trans (refuse_of_room hroom f.src))
  exact congrArg (fun t : State => Host.Outcome.next t.finish) htake

/-! ### Sheets -/

namespace Works

theorem takeSheet_enrolling {src : NodeId} {payload : Bytes} {q : Sheet} (hq : sheet? payload = some q)
    (hsource : w.sourceValid src = true) (hlookup : w.lookup src = .roster e .enrolling)
    (hctx : w.ctxOf e = some c) (hx : w.ctx c = some x) :
    w.takeSheet src payload = w.sheetInExchange c x src q := by
  unfold takeSheet
  rw [hq]
  dsimp only
  rw [hsource, hlookup]
  unfold sheetByState
  dsimp only
  rw [hctx]
  dsimp only
  rw [hx]
  rfl

/-- A context with one sheet more, staged and acknowledged (R55). -/
def calibratedCtx (x : Ctx) (i : Fin 4) (offset : Int) (scale : Nat) : Ctx :=
  { x with
    staged := x.staged.set i.val (some { offset := offset, scale := scale }) i.isLt,
    sheets := x.sheets + 1, lastAck := some true, expected := !x.expected }

theorem stageSheet_cal {i : Fin 4} {offset : Int} {scale : Nat} (hi : i.val < x.declared.length)
    (ho : -500 ≤ offset ∧ offset ≤ 500) (hs : 512 ≤ scale ∧ scale ≤ 2047) :
    stageSheet x (.cal i.val offset scale) =
      ({ x with staged := x.staged.set i.val (some { offset := offset, scale := scale }) i.isLt },
        true) := by
  unfold stageSheet
  dsimp only
  rw [fin4?_val]
  exact if_pos ⟨hi, ho.1, ho.2, hs.1, hs.2⟩

/-- A new CAL sheet for a declared channel, within its limits, with room for its SHEET_ACK (R55). -/
theorem sheetInExchange_new {src : NodeId} {mark continues : Bool} {i : Fin 4} {offset : Int} {scale : Nat}
    (hmark : mark = x.expected) (hcount : x.sheets < 6) (hi : i.val < x.declared.length)
    (ho : -500 ≤ offset ∧ offset ≤ 500) (hs : 512 ≤ scale ∧ scale ≤ 2047) (hroom : w.command.length ≤ 14) :
    w.sheetInExchange c x src { mark := mark, continues := continues, body := .cal i.val offset scale } =
      if continues then
        ((w.setCtx c (some (calibratedCtx x i offset scale))).commanded kindSheetAck src
          [flagByte mark, 1]).setCtx c (some { calibratedCtx x i offset scale with
            deadline := some (after w.time Config.sheetWait) })
      else
        ((w.setCtx c (some (calibratedCtx x i offset scale))).commanded kindSheetAck src
          [flagByte mark, 1]).completeExchange c (calibratedCtx x i offset scale) := by
  have hack : (w.setCtx c (some (calibratedCtx x i offset scale))).sheetAck src mark true =
      (w.setCtx c (some (calibratedCtx x i offset scale))).commanded kindSheetAck src
        [flagByte mark, 1] := submitCommand_commanded (w := w.setCtx c _) hroom _ _ _
  have hnew : w.sheetInExchange c x src
      { mark := mark, continues := continues, body := .cal i.val offset scale } =
      w.newSheet c x src { mark := mark, continues := continues, body := .cal i.val offset scale } :=
    (if_pos hmark).trans (if_pos hcount)
  rw [hnew, ← hack]
  unfold newSheet
  rw [stageSheet_cal hi ho hs]
  rfl

end Works

/-- Settles O23. -/
theorem newSheetStaged : Obligations.NewSheetStaged := by
  intro s h rest f mark i offset scale e c x hq hf hk hsheet hsource hlookup hctxOf hx hmark hcount hi ho hs
    hroom
  have hsheet := takeSheet_enrolling hsheet hsource hlookup hctxOf hx
  rw [sheetInExchange_new hmark hcount hi ho hs hroom, if_pos rfl] at hsheet
  have k := takeSheet_keeps (q := true) s.works f.src f.payload
  rw [hsheet] at k
  generalize hv : Works.setCtx _ c _ = v at hsheet k
  have htake := exec_takeEnu (g := fun w f _ => w.takeSheet f.src f.payload) hq hf hk hsheet
  have hctx : s.works.OnlyCtx v c (some { calibratedCtx x i offset scale with
      deadline := some (after s.works.time Config.sheetWait) }) :=
    hv ▸ ((onlyCtx_setCtx s.works c (some (calibratedCtx x i offset scale))).of_ctxs
      (by rw [ctxs_commanded])).setCtx _
  refine ⟨_, congrArg (fun t : State => Host.Outcome.next t.finish) htake, hctx, ?_,
    ?_, ?_, ?_, sameBase_untouched k.sameBase, sameAround_enu _ _ _, rfl⟩
  · rw [← hv]
    rfl
  · simp [← hv]
  · simp [← hv]
  · simp [← hv]

/-! ### The last sheet -/

/-- The entry of a completed exchange (R58). -/
def Entry.completed (x : Ctx) (time : Nat) (n : Entry) : Entry :=
  { n with
    channels := x.channels, note := x.stagedNote, interval := x.interval, lastHeard := time,
    lastSeq := none, frames := 0, muteCloses := 0, badStreak := 0 }

theorem channels_eq (x : Ctx) :
    x.channels = (x.declared.zip x.staged.toList).map fun p =>
      { cls := p.1, offset := (p.2.map Calibration.offset).getD 0,
        scale := (p.2.map Calibration.scale).getD 1024, latest := none } := by
  refine List.map_congr_left fun p _ => ?_
  obtain ⟨k, cal⟩ := p
  cases cal <;> rfl

namespace Works

/-- What a notice does to the uplink queue follows from the mask, the queue, time and the gap flag (R184 to
R186). -/
theorem upQueue_notice (w : Works) (k : NoticeKind) (subject : Byte) (detail : Bytes) :
    (w.notice k subject detail).upQueue =
      if w.mask[k.ix] then
        if 1 ≤ w.freeSlots then w.upQueue ++ [w.noticeFrame k subject detail] else w.upQueue
      else w.upQueue := by
  unfold notice
  split
  · split <;> rfl
  · rfl

theorem upQueue_notice_congr {u v : Works} (hmask : v.mask = u.mask) (hqueue : v.upQueue = u.upQueue)
    (hreserved : v.reserved = u.reserved) (htime : v.time = u.time) (hgap : v.gapPending = u.gapPending)
    (k : NoticeKind) (subject : Byte) (detail : Bytes) :
    (v.notice k subject detail).upQueue = (u.notice k subject detail).upQueue := by
  simp only [upQueue_notice, freeSlots, noticeFrame, hmask, hqueue, hreserved, htime, hgap]
  rfl

@[simp] theorem command_notice (w : Works) (k : NoticeKind) (subject : Byte) (detail : Bytes) :
    (w.notice k subject detail).command = w.command := by
  unfold notice
  split
  · split <;> rfl
  · rfl

/-- The shared records when the context is free and the entry ACTIVE, before the ENROLLED notice (R58). -/
def enrolled (w : Works) (c : CtxIx) (x : Ctx) : Works :=
  (w.setCtx c none).nodeTo x.entry .active (Entry.completed x w.time)

@[simp] theorem ctxs_enrolled (w : Works) (c : CtxIx) (x : Ctx) :
    (w.enrolled c x).ctxs = (w.setCtx c none).ctxs := rfl

@[simp] theorem zones_enrolled (w : Works) (c : CtxIx) (x : Ctx) : (w.enrolled c x).zones = w.zones := rfl

@[simp] theorem runs_enrolled (w : Works) (c : CtxIx) (x : Ctx) : (w.enrolled c x).runs = w.runs := rfl

theorem completeExchange_eq (w : Works) (c : CtxIx) (x : Ctx) :
    w.completeExchange c x =
      ((w.enrolled c x).notice .enrolled (byte x.entry.val)
        ((w.enrolled c x).enrolledDetail x)).nowActive x.entry := rfl

theorem entry_enrolled (w : Works) (c : CtxIx) (x : Ctx) :
    (w.enrolled c x).entry x.entry = (w.entry x.entry).entering .active (Entry.completed x w.time) :=
  entry_nodeTo _ _ _ _

theorem enrolledDetail_enrolled (w : Works) (c : CtxIx) (x : Ctx) :
    (w.enrolled c x).enrolledDetail x = w.enrolledDetail x := by
  unfold enrolledDetail
  rw [entry_enrolled]
  rfl

/-- FRW's and RDP's work on a completed exchange leaves the nodes as they are. -/
theorem completeExchange_nodes (c : CtxIx) (hinterval : 0 < x.interval) (htime : w.time < 0xFFFFFFFF) :
    (w.completeExchange c x).roster = (w.enrolled c x).roster
      ∧ (w.completeExchange c x).ctxs = (w.enrolled c x).ctxs := by
  have k := notice_keeps (q := true) (n := true) (f := true) (w.enrolled c x) .enrolled
    (byte x.entry.val) ((w.enrolled c x).enrolledDetail x)
  have hentry := (entry_of_roster (k.nodes rfl).1 x.entry).trans (entry_enrolled w c x)
  rw [completeExchange_eq]
  have hnodes := nowActive_nodes (w := (w.enrolled c x).notice .enrolled (byte x.entry.val)
    ((w.enrolled c x).enrolledDetail x)) (e := x.entry) (by rw [hentry, k.time]; rfl)
    (by rw [hentry]; exact hinterval) (by rw [k.time]; exact htime)
  exact ⟨hnodes.1.trans (k.nodes rfl).1, hnodes.2.trans (k.nodes rfl).2⟩

/-- With no air channel in a zone, and no valve node, the ENROLLED notice is all that is told. -/
theorem completeExchange_alone (c : CtxIx) (hinterval : 0 < x.interval) (htime : w.time < 0xFFFFFFFF)
    (hair : ((w.enrolled c x).entry x.entry).airZone = none)
    (hvalve : w.valveZone? (w.entry x.entry).id = none) :
    w.completeExchange c x =
      (w.enrolled c x).notice .enrolled (byte x.entry.val) (w.enrolledDetail x) := by
  have k := notice_keeps (q := true) (n := true) (f := true) (w.enrolled c x) .enrolled
    (byte x.entry.val) (w.enrolledDetail x)
  have hentry := entry_of_roster (k.nodes rfl).1 x.entry
  have hvalve' : ((w.enrolled c x).notice .enrolled (byte x.entry.val)
      (w.enrolledDetail x)).valveZone? ((w.enrolled c x).entry x.entry).id = none := by
    rw [entry_enrolled]
    unfold valveZone? cfg
    rw [k.tables]
    exact hvalve
  rw [completeExchange_eq, enrolledDetail_enrolled]
  refine nowActive_alone ?_ ?_ (by rw [k.time]; exact htime) (by rw [hentry]; exact hair)
    (by rw [hentry]; exact hvalve')
  · rw [hentry, entry_enrolled, k.time]
    rfl
  · rw [hentry, entry_enrolled]
    exact hinterval

end Works

/-- Settles O24. -/
theorem lastSheetCompletesExchange : Obligations.LastSheetCompletesExchange := by
  intro s h rest f mark i offset scale e c x hq hf hk hsheet hsource hlookup hctxOf hx hmark hcount hi ho hs
    hroom hinterval htime staged n
  obtain rfl : x.entry = e := ctxOf_entry hctxOf hx
  have hsheet := takeSheet_enrolling hsheet hsource hlookup hctxOf hx
  rw [sheetInExchange_new hmark hcount hi ho hs hroom, if_neg Bool.false_ne_true] at hsheet
  have k := takeSheet_keeps (q := true) s.works f.src f.payload
  rw [hsheet] at k
  obtain ⟨y, hy⟩ : ∃ y, y = calibratedCtx x i offset scale := ⟨_, rfl⟩
  obtain ⟨u, hu⟩ : ∃ u, u = (s.works.setCtx c (some y)).commanded kindSheetAck f.src [flagByte mark, 1] :=
    ⟨_, rfl⟩
  rw [← hy, ← hu] at hsheet k
  have hye : y.entry = x.entry := hy ▸ rfl
  have hutime : u.time = s.works.time := hu ▸ rfl
  have huroster : u.roster = s.works.roster := by simp [hu]
  have huctx : s.works.OnlyCtx u c (some y) :=
    (onlyCtx_setCtx s.works c (some y)).of_ctxs (by rw [hu, ctxs_commanded])
  have hnodes := completeExchange_nodes (w := u) (x := y) c (hy ▸ hinterval) (hutime ▸ htime)
  have hothers := onlyEntry_nodeTo (u.setCtx c none) y.entry .active (Entry.completed y u.time)
  have hentry : (u.completeExchange c y).entry x.entry =
      (s.works.entry x.entry).entering .active (Entry.completed y s.works.time) := by
    rw [← hye, entry_of_roster hnodes.1, entry_enrolled, entry_of_roster huroster, hutime]
  have halone := completeExchange_alone (w := u) (x := y) c (hy ▸ hinterval) (hutime ▸ htime)
  generalize hv : u.completeExchange c y = v at hsheet k hnodes hentry halone
  have htake := exec_takeEnu (g := fun w f _ => w.takeSheet f.src f.payload) hq hf hk hsheet
  refine ⟨_, congrArg (fun t : State => Host.Outcome.next t.finish) htake, ?_, ?_, fun z hz => ?_,
    sameBase_untouched k.sameBase, sameAround_enu _ _ _, rfl, fun hair hvalve => ?_⟩
  · exact (huctx.setCtx none).of_ctxs (hnodes.2.trans (ctxs_enrolled u c y))
  · refine hentry.trans ?_
    unfold Entry.entering Entry.completed
    rw [channels_eq, hy]
    rfl
  · have hz' : z ≠ y.entry := fun hc => hz (hc.trans hye)
    exact ((entry_of_roster hnodes.1 z).trans (hothers.2.1 z hz')).trans (entry_of_roster huroster z)
  · have hid : (u.entry y.entry).id = f.src := by
      rw [hye, entry_of_roster huroster]
      exact (lookup_roster hlookup).2
    have htables : u.valveZone? (u.entry y.entry).id = none := by
      rw [hid, hu]
      exact hvalve
    have hquiet : ((u.enrolled c y).entry y.entry).airZone = none := by
      rw [← entry_of_roster hnodes.1, hye]
      exact hair
    have hend := halone hquiet htables
    have hdetail : u.enrolledDetail y = beId f.src ++ [n.role.code, zoneOrNone n.zone] ++ be16 x.interval
        ++ [byte (staged.toList.filter Option.isSome).length, if x.early then 1 else 0]
        ++ optBytes 8 x.stagedNote := by
      unfold enrolledDetail
      rw [hid, hye, entry_of_roster huroster, hy]
      rfl
    rw [hdetail, hye] at hend
    refine ⟨?_, ?_, ?_, ?_⟩
    · show v.command = _
      rw [hend, command_notice, hu]
      rfl
    · show v.zones = _
      rw [hend, zones_notice, zones_enrolled, hu, zones_commanded, zones_setCtx]
    · show v.runs = _
      rw [hend, runs_notice, runs_enrolled, hu, runs_commanded, runs_setCtx]
    · show v.upQueue = _
      rw [hend, hu]
      refine upQueue_notice_congr ?_ ?_ ?_ ?_ ?_ _ _ _ <;>
        dsimp only [enrolled, nodeTo, bumpEntry, modEntry, Works.setCtx, commanded]

/-! ### How an exchange fails, and early traffic -/

theorem onRow_some {α : Type} (s : State) (i : α) (g : Works → α → Works) :
    s.onRow (some i) g = s.onWorks fun w => g w i := rfl

namespace Works

/-- The entry as a failed exchange returns it (R59). -/
def returnedEntry (x : Ctx) (n : Entry) : Entry :=
  match x.returnTo with
  | .reserved => { n with state := .reserved, gen := n.gen + 1 }
  | .free => Entry.free (n.gen + 1)

theorem onlyEntry_returnEntry (w : Works) (x : Ctx) :
    w.OnlyEntry (w.returnEntry x) x.entry (returnedEntry x (w.entry x.entry)) := by
  unfold returnEntry returnedEntry
  cases x.returnTo with
  | free => exact onlyEntry_nodeTo w x.entry .free fun n => Entry.free n.gen
  | reserved => exact onlyEntry_nodeTo w x.entry .reserved id

/-- A failed exchange frees its context and returns its entry; what is told of it leaves the nodes alone. -/
theorem failExchange_nodes (w : Works) (c : CtxIx) (x : Ctx) (r : FailReason) :
    (w.failExchange c x r).roster = ((w.setCtx c none).returnEntry x).roster
      ∧ (w.failExchange c x r).ctxs = ((w.setCtx c none).returnEntry x).ctxs :=
  ((notice_keeps (q := true) (n := true) (f := false) _ _ _ _).trans (tellFrost_keeps _ _)).nodes rfl

theorem sheetExpiry_reached {d : Nat} (hx : w.ctx c = some x) (hd : x.deadline = some d)
    (h : d ≤ w.time) : w.sheetExpiry c = w.failExchange c x .timeout := by
  unfold sheetExpiry
  rw [hx]
  dsimp only
  rw [hd]
  exact if_pos (reached_of_le h)

theorem sheetExpiry_early {d : Nat} (hx : w.ctx c = some x) (hd : x.deadline = some d)
    (h : w.time < d) : w.sheetExpiry c = w := by
  unfold sheetExpiry
  rw [hx]
  dsimp only
  rw [hd]
  exact if_neg (by rw [not_reached_of_lt h]; exact Bool.false_ne_true)

/-- The flag of an exchange that has had early traffic (R60). -/
def markEarly (w : Works) (c : CtxIx) : Works :=
  { w with ctxs := upd w.ctxs c fun o => o.map fun y => { y with early := true } }

theorem takeEarly_marks {st : NodeState} {src : NodeId} (hstate : (w.entry e).state = .enrolling)
    (hid : (w.entry e).id = src) (hc : w.ctxOf e = some c) :
    w.takeEarly src (.roster e st) = w.markEarly c := by
  refine (if_pos ⟨hstate, hid⟩).trans ?_
  rw [hc]
  rfl

theorem onlyCtx_markEarly (hx : w.ctx c = some x) :
    w.OnlyCtx (w.markEarly c) c (some { x with early := true }) := by
  have hat (d : CtxIx) : (w.markEarly c).ctx d =
      if d = c then (w.ctx d).map fun y => { y with early := true } else w.ctx d := upd_at _ _ _ _
  exact ⟨by rw [hat, if_pos rfl, hx]; rfl, fun d hd => by rw [hat, if_neg hd]⟩

end Works

/-- Settles O25. -/
theorem sheetDeadlineFailsExchange : Obligations.SheetDeadlineFailsExchange := by
  refine ⟨fun s c x d hx hd => ⟨fun hle => ?_, fun hlt => ?_⟩, ?_⟩
  · have hwork : exec (.sheetDeadline c.val) s =
        .next (s.onWorks fun w => w.failExchange c x .timeout).finish := by
      refine congrArg (fun t : State => Host.Outcome.next t.finish) ?_
      show s.onRow (ctxIx? c.val) Works.sheetExpiry = _
      rw [ctxIx?_val, onRow_some]
      exact congrArg (fun w => ({ s with works := w } : State)) (sheetExpiry_reached hx hd hle)
    have k := failExchange_keeps (q := true) s.works c x .timeout
    have hnodes := failExchange_nodes s.works c x .timeout
    have hentry := onlyEntry_returnEntry (s.works.setCtx c none) x
    refine ⟨_, hwork, ?_, ?_, fun y hy => ?_, sameBase_untouched k.sameBase, sameAround_onWorks s _⟩
    · exact (onlyCtx_setCtx s.works c none).of_ctxs (hnodes.2.trans hentry.2.2)
    · exact (entry_of_roster hnodes.1 x.entry).trans hentry.1
    · exact (entry_of_roster hnodes.1 y).trans (hentry.2.1 y hy)
  · refine congrArg (fun t : State => Host.Outcome.next t.finish) ?_
    show s.onRow (ctxIx? c.val) Works.sheetExpiry = _
    rw [ctxIx?_val, onRow_some]
    exact congrArg (fun w => ({ s with works := w } : State)) (sheetExpiry_early hx hd hlt)
  · intro s h rest f e st c x hq hhit hf hk hstate hid hctx hx
    have hearly : s.works.takeEarly f.src h.hit = s.works.markEarly c :=
      hhit ▸ takeEarly_marks hstate hid hctx
    have htake := exec_takeEnu (g := fun w f hit => w.takeEarly f.src hit) hq hf hk hearly
    exact ⟨_, congrArg (fun t : State => Host.Outcome.next t.finish) htake, onlyCtx_markEarly hx, rfl,
      sameAround_enu _ _ _, rfl⟩

/-! ### Silence and loss -/

namespace Works

theorem onlyEntry_becomeSilent (w : Works) (e : EntryIx) :
    w.OnlyEntry (w.becomeSilent e) e ((w.entry e).entering .silent id) :=
  (onlyEntry_nodeTo w e .silent id).of_nodes
    ((tellFrost_keeps (q := true) (n := true) _ _).nodes rfl)

theorem onlyEntry_becomeLost (w : Works) (e : EntryIx) :
    w.OnlyEntry (w.becomeLost e) e ((w.entry e).entering .lost Entry.clearLatest) :=
  (onlyEntry_nodeTo w e .lost Entry.clearLatest).of_nodes
    (((notice_keeps (q := true) (n := true) (f := false) _ _ _ _).trans (tellFrost_keeps _ _)).nodes rfl)

end Works

/-- Settles O26. -/
theorem silenceAndLossDeadlines : Obligations.SilenceAndLossDeadlines := by
  refine ⟨fun s => rfl, fun s e hrun => ⟨fun hstate hle => ?_, fun hstate hle => ?_⟩⟩
  · have hwork : exec (.silenceDeadline e.val) s =
        .next (s.onWorks fun w => w.becomeSilent e).finish := by
      refine congrArg (fun t : State => Host.Outcome.next t.finish) ?_
      show s.onRow (entryIx? e.val) Works.silenceExpiry = _
      rw [entryIx?_val, onRow_some]
      exact congrArg (fun w => ({ s with works := w } : State))
        (if_pos ⟨running_iff.mpr hrun, hstate, reached_of_le hle⟩)
    exact ⟨_, hwork, onlyEntry_becomeSilent s.works e,
      sameBase_untouched (becomeSilent_keeps (q := true) s.works e).sameBase, sameAround_onWorks s _⟩
  · have hwork : exec (.lossDeadline e.val) s = .next (s.onWorks fun w => w.becomeLost e).finish := by
      refine congrArg (fun t : State => Host.Outcome.next t.finish) ?_
      show s.onRow (entryIx? e.val) Works.lossExpiry = _
      rw [entryIx?_val, onRow_some]
      exact congrArg (fun w => ({ s with works := w } : State))
        (if_pos ⟨running_iff.mpr hrun, hstate, reached_of_le hle⟩)
    exact ⟨_, hwork, onlyEntry_becomeLost s.works e,
      sameBase_untouched (becomeLost_keeps (q := true) s.works e).sameBase, sameAround_onWorks s _⟩

end Sys2Proof.Machine
end

section
/-! PROOF. Requests that read, or that work on the part itself: O50 to O53 and O57 to O59. -/

namespace Sys2Proof.Machine

open Works State

variable {s u : State} {w : Works} {port : Port} {t : Taken} {code : Byte} {args : Bytes} {may : Bool}
  {α : Type} {row : RequestRow} {v : Service α} {a : α} {ans : Answer}

/-! ### A request with the authority it needs -/

theorem toNat_byte_of_lt {n : Nat} (h : n < 256) : (byte n).toNat = n := by
  unfold byte
  rw [BitVec.toNat_ofNat]
  exact Nat.mod_eq_of_lt h

theorem toNat_byte_zone (z : ZoneIx) : (byte z.val).toNat = z.val :=
  toNat_byte_of_lt (Nat.lt_trans z.isLt (by decide))

theorem toNat_byte_slot (i : SlotIx) : (byte i.val).toNat = i.val :=
  toNat_byte_of_lt (Nat.lt_trans i.isLt (by decide))

theorem toNat_byte_win (i : WinIx) : (byte i.val).toNat = i.val :=
  toNat_byte_of_lt (Nat.lt_trans i.isLt (by decide))

theorem toNat_byte_fin4 (i : Fin 4) : (byte i.val).toNat = i.val :=
  toNat_byte_of_lt (Nat.lt_trans i.isLt (by decide))

theorem toNat_byte_entry (e : EntryIx) : (byte e.val).toNat = e.val := toNat_byte_of_lt e.isLt

theorem winIx?_val (i : WinIx) : winIx? i.val = some i := dif_pos i.isLt

theorem winIx?_of_le {n : Nat} (h : 2 ≤ n) : winIx? n = none := dif_neg (Nat.not_lt_of_le h)

theorem zoneIx?_of_le {n : Nat} (h : 40 ≤ n) : zoneIx? n = none := dif_neg (Nat.not_lt_of_le h)

theorem slotIx?_of_le {n : Nat} (h : 12 ≤ n) : slotIx? n = none := dif_neg (Nat.not_lt_of_le h)

theorem fin4?_of_le {n : Nat} (h : 4 ≤ n) : fin4? n = none := dif_neg (Nat.not_lt_of_le h)

namespace State

theorem Asks.standing (h : s.Asks port t code args may) : standing port t may = .judged := by
  rcases h.authority with rfl | ⟨hrole, rfl⟩
  · rfl
  · cases port
    · rfl
    · exact standing_service t hrole

/-- A request that its port and role give authority for is judged by its own rule (R172 to R174). -/
theorem Asks.serve_eq (h : s.Asks port t code args may) (hrow : requestRow code args = row)
    (hpick : (request? code args).bind v.pick = some a) (hmay : v.fieldMay a = may)
    (hbody : v.body a (s.dropRequest port) = (u, ans)) :
    s.serve port row v = u.answer port t ans := by
  have hjudged := serve_judged s port row v t a h.next (by rw [h.code, h.args]; exact hrow)
    (by rw [h.code, h.args]; exact hpick) (by rw [hmay]; exact h.standing)
  rw [hbody] at hjudged
  exact hjudged

/-- The same, with the step ended. -/
theorem Asks.outcome (h : s.Asks port t code args may) (row : RequestRow) (v : Service α) (a : α)
    (hrow : requestRow code args = row) (hpick : (request? code args).bind v.pick = some a)
    (hmay : v.fieldMay a = may) (hbody : v.body a (s.dropRequest port) = (u, ans)) :
    (s.serve port row v).conclude = .next (u.answer port t ans).finish :=
  congrArg (fun x : State => Host.Outcome.next x.finish) (h.serve_eq hrow hpick hmay hbody)

end State

/-- The name of a table, from its code. -/
theorem tableName?_code (name : TableName) : tableName? name.code = some name := by
  cases name <;> rfl

theorem activeItems_dropRequest (s : State) (port : Port) (table : Byte) (row : Nat) :
    (s.dropRequest port).activeItems table row = s.activeItems table row := by
  cases port <;> rfl

/-! ### Reads -/

namespace State

theorem nodeReadBody_entry (e : EntryIx) (s : State) :
    nodeReadBody (byte e.val).toNat s = (s, .done (nodeItems s.works e)) := by
  rw [nodeReadBody, toNat_byte_entry, entryIx?_val]

theorem zoneReadBody_zone (z : ZoneIx) (s : State) :
    zoneReadBody (byte z.val).toNat s = (s, .done (zoneItems s.works z)) := by
  rw [zoneReadBody, toNat_byte_zone, zoneIx?_val]

theorem zoneReadBody_range {n : Nat} (h : 40 ≤ n) (s : State) :
    zoneReadBody n s = (s, .refused .range) := by
  rw [zoneReadBody, zoneIx?_of_le h]

theorem runReadBody_run (i : SlotIx) {first : Nat} (h : first < 40) {r : Run}
    (hr : s.works.run i = some r) :
    runReadBody ((byte i.val).toNat, first) s =
      (s, { result := .done, items := runItems s.works i r,
            list := some (((r.entries.drop first).take 8).map entryBytes) }) := by
  unfold runReadBody
  dsimp only
  rw [toNat_byte_slot, slotIx?_val]
  dsimp only
  rw [if_neg (Nat.not_le_of_lt h), hr]

theorem runReadBody_empty (i : SlotIx) {first : Nat} (h : first < 40) (hr : s.works.run i = none) :
    runReadBody ((byte i.val).toNat, first) s = (s, .refused .unknown) := by
  unfold runReadBody
  dsimp only
  rw [toNat_byte_slot, slotIx?_val]
  dsimp only
  rw [if_neg (Nat.not_le_of_lt h), hr]

theorem runReadBody_range {i first : Nat} (h : 12 ≤ i ∨ 40 ≤ first) (s : State) :
    runReadBody (i, first) s = (s, .refused .range) := by
  unfold runReadBody
  dsimp only
  rcases h with h | h
  · rw [slotIx?_of_le h]
  · split
    · rfl
    · exact if_pos h

theorem windowReadBody_range {i first : Nat} (h : 2 ≤ i ∨ 40 ≤ first) (s : State) :
    windowReadBody (i, first) s = (s, .refused .range) := by
  unfold windowReadBody
  dsimp only
  rcases h with h | h
  · rw [winIx?_of_le h]
  · rw [zoneIx?_of_le h]
    split
    · rename_i hnone
      cases hnone
    · rfl

theorem windowReadBody_closed (i : WinIx) (first : ZoneIx) (h : s.windows[i].isOpen = false) :
    windowReadBody ((byte i.val).toNat, (byte first.val).toNat) s =
      (s, { result := .done, items := windowItems i s.windows[i],
            list := some ((windowZones first.val).map fun z => accBytes z s.windows[i].acc[z]) }) := by
  unfold windowReadBody
  dsimp only
  rw [toNat_byte_win, toNat_byte_zone, winIx?_val, zoneIx?_val]
  exact if_neg (by rw [h]; exact Bool.false_ne_true)

theorem windowReadBody_open (i : WinIx) (first : ZoneIx) (h : s.windows[i].isOpen = true) :
    windowReadBody ((byte i.val).toNat, (byte first.val).toNat) s = (s, .refused .state) := by
  unfold windowReadBody
  dsimp only
  rw [toNat_byte_win, toNat_byte_zone, winIx?_val, zoneIx?_val]
  exact if_pos h

end State

/-- Settles O50. -/
theorem readsAnswerAndChangeNothing : Obligations.ReadsAnswerAndChangeNothing := by
  intro s port t
  have hworks : (s.dropRequest port).works = s.works := works_dropRequest s port
  have hwindows : (s.dropRequest port).windows = s.windows := windows_dropRequest s port
  refine ⟨fun h => ?_, fun e h => ?_, fun a b c h => ?_, fun z h => ?_, fun z h hz => ?_,
    fun i first r h hf hr => ?_, fun i first h hrange => ?_, fun i first h hf hr => ?_,
    fun i first h hrange => ?_, fun i first h hopen => ?_, fun i first h hopen => ?_,
    fun table row items h hi => ?_, fun table row h hi => ?_, fun name row items h hi => ?_⟩
  · exact h.outcome .timeRead timeReadService () rfl rfl rfl (by rw [← hworks]; rfl)
  · refine h.outcome .nodeRead nodeReadService _ rfl rfl rfl ?_
    exact hworks ▸ nodeReadBody_entry e (s.dropRequest port)
  · exact h.outcome .nodeProbe nodeProbeService _ rfl rfl rfl (by rw [← hworks]; rfl)
  · refine h.outcome .zoneRead zoneReadService _ rfl rfl rfl ?_
    exact hworks ▸ zoneReadBody_zone z (s.dropRequest port)
  · exact h.outcome .zoneRead zoneReadService _ rfl rfl rfl (zoneReadBody_range hz _)
  · refine h.outcome .runRead runReadService _ rfl rfl rfl ?_
    exact hworks ▸ runReadBody_run (s := s.dropRequest port) i hf (hworks.symm ▸ hr)
  · exact h.outcome .runRead runReadService _ rfl rfl rfl (runReadBody_range hrange _)
  · exact h.outcome .runRead runReadService _ rfl rfl rfl (runReadBody_empty i hf (hworks.symm ▸ hr))
  · exact h.outcome .windowRead windowReadService _ rfl rfl rfl (windowReadBody_range hrange _)
  · refine h.outcome .windowRead windowReadService _ rfl rfl rfl ?_
    exact hwindows ▸ windowReadBody_closed (s := s.dropRequest port) i first (hwindows.symm ▸ hopen)
  · exact h.outcome .windowRead windowReadService _ rfl rfl rfl
      (windowReadBody_open i first (hwindows.symm ▸ hopen))
  · refine h.outcome .tableRead tableReadService _ rfl rfl rfl ?_
    show tableReadBody _ _ = _
    rw [tableReadBody, activeItems_dropRequest, hi]
  · refine h.outcome .tableRead tableReadService _ rfl rfl rfl ?_
    show tableReadBody _ _ = _
    rw [tableReadBody, activeItems_dropRequest, hi]
  · refine h.outcome .stageRead stageReadService _ rfl rfl rfl ?_
    show stageReadBody _ _ = _
    rw [stageReadBody, tableName?_code, bank_dropRequest]
    show (match s.bank.rowItems name row.toNat with | some items => _ | none => _) = _
    rw [hi]

end Sys2Proof.Machine
end

section
/-! PROOF. Requests on the part itself and on the staging bank: O51 to O53 and O57 to O59. -/

namespace Sys2Proof.Machine

open Works State

variable {s u : State} {w : Works} {port : Port} {t : Taken}

/-! ### TIME.SET, START and RESET -/

namespace State

theorem running_dropRequest (s : State) (port : Port) :
    (s.dropRequest port).works.running = s.works.running := by
  rw [works_dropRequest]

theorem running_of_device (h : s.works.device = .running) : s.works.running = true := running_iff.mpr h

theorem not_running_of_device (h : s.works.device = .halted) : s.works.running = false := by
  rw [Works.running, h]
  rfl

theorem timeSetBody_running (h : s.works.running = true) (n : Nat) :
    timeSetBody n s = (s, .refused .state) := if_pos h

theorem timeSetBody_halted (h : s.works.running = false) (n : Nat) :
    timeSetBody n s =
      ({ s with inFlight := s.moveWait n, works := { s.works with time := n } }, .done []) :=
  if_neg (by rw [h]; exact Bool.false_ne_true)

theorem startBody_running (h : s.works.running = true) : startBody () s = (s, .refused .state) := if_pos h

theorem startBody_halted (h : s.works.running = false) :
    startBody () s = (s.started, .done [be32 s.works.time]) :=
  if_neg (by rw [h]; exact Bool.false_ne_true)

end State

theorem submitUrgent_full (h : ¬ w.urgent.length < 8) (k : Byte) (dst : NodeId) (p : Bytes) :
    w.submitUrgent k dst p = w := if_neg h

/-- What START does to the shared records (R39, R118, R162, R176). -/
theorem startWorks_eq (w : Works) :
    startWorks w =
      { w with
        device := .running, alert := false, alertTimer := none,
        roster := mapRows (Entry.started w.time) w.roster, cmdNumber := w.cmdNumber + 1,
        urgent := (startWorks w).urgent, txSeq := (startWorks w).txSeq } := by
  unfold startWorks startBroadcast submitUrgent
  split <;> rfl

theorem startWorks_urgent (h : w.urgent.length < 8) :
    (startWorks w).urgent = w.urgent ++ [w.composed 0x07 0xFFFFFF#24 [0x02, w.cmdNumber, 0, 0]] := by
  unfold startWorks startBroadcast submitUrgent
  split
  · rfl
  · rename_i hfull
    exact absurd h hfull

theorem startWorks_entry (w : Works) (e : EntryIx) :
    (startWorks w).entry e =
      if (w.entry e).state = .active then
        { w.entry e with lastHeard := w.time, frames := 0, muteCloses := 0 }
      else w.entry e := by
  have hroster : (startWorks w).roster = mapRows (Entry.started w.time) w.roster :=
    congrArg Works.roster (startWorks_eq w)
  unfold Works.entry
  rw [hroster]
  exact mapRows_at _ _ _ _

/-- Settles O51. -/
theorem timeSetStartAndReset : Obligations.TimeSetStartAndReset := by
  intro s port t
  have hrun := running_dropRequest s port
  have hworks := works_dropRequest s port
  refine ⟨fun a b c d h hd => ?_, fun a b c d h hd => ?_, fun h hd => ?_, fun h hd => ?_, fun h => ?_,
    fun h => if_pos h⟩
  · refine h.outcome .timeSet timeSetService _ rfl rfl rfl ?_
    refine (timeSetBody_halted (hrun.trans (not_running_of_device hd)) _).trans ?_
    rw [moveWait, hworks, inFlight_dropRequest]
  · exact h.outcome .timeSet timeSetService _ rfl rfl rfl
      (timeSetBody_running (hrun.trans (running_of_device hd)) _)
  · exact h.outcome .start startService () rfl rfl rfl
      (startBody_running (hrun.trans (running_of_device hd)))
  · have hstart := h.outcome .start startService () rfl rfl rfl
      (startBody_halted (hrun.trans (not_running_of_device hd)))
    rw [hworks] at hstart
    have hu : (s.dropRequest port).started.works = startWorks s.works := congrArg startWorks hworks
    have heq := startWorks_eq s.works
    have hwin : (s.dropRequest port).started.windows =
        s.windows.set 0 (s.windows[0].openAt s.works.time s.works.site.windowPeriod) := by
      simp only [started, hworks, windows_dropRequest]
    have hfold : (s.dropRequest port).started.folds = s.folds.set 0 (some s.works.foldRecord) := by
      simp only [started, hworks, folds_dropRequest]
    refine ⟨(s.dropRequest port).started, hstart, ?_, ?_, ?_, ?_, ?_, ?_, ?_, ?_, fun hroom => ?_,
      fun e => ?_, ?_, ?_, ?_, bank_dropRequest s port, watch_dropRequest s port,
      rxFifo_dropRequest s port, pending_dropRequest s port⟩
    · rw [hu, heq]
    · rw [hu, heq]
    · rw [hu, heq]
    · rw [hu, heq]
    · rw [hu, heq]
    · rw [hu, heq]
    · rw [hu, heq]
    · rw [hu, heq]
    · rw [hu, startWorks_urgent hroom]
    · rw [hu, startWorks_entry]
    · rw [hwin]
      exact Vector.getElem_set_self _
    · rw [hwin]
      exact Vector.getElem_set_ne _ _ (by decide)
    · rw [hfold]
      exact Vector.getElem_set_self _
  · exact h.outcome .reset resetService () rfl rfl rfl rfl

/-! ### The staging bank -/

theorem request?_stageWrite {name : TableName} {row : Byte} {fields : Bytes}
    (h : fields.length = name.rowBytes) :
    request? 0x05 (name.code :: row :: fields) = some (.stageWrite name row.toNat fields) := by
  unfold request?
  rw [if_pos rfl]
  unfold stageWrite?
  dsimp only
  rw [tableName?_code]
  exact if_pos h

/-- A row that exists, with no commit pending, goes by what its bytes spell (R179). -/
theorem stageWriteBody_put {name : TableName} {row : Nat} {fields : Bytes} {b : Tables}
    {ranges : List Bool} (hrow : row < name.rows) (hpend : s.commitPending = false)
    (hput : s.bank.putRow name row fields = some (b, ranges)) :
    stageWriteBody (some (name, row, fields)) s =
      match firstFault ranges with
      | some i => (s, { result := .range, items := [[byte i]], list := none })
      | none => ({ s with bank := b }, .done []) := by
  refine (if_neg (Nat.not_le_of_lt hrow)).trans ((if_neg ?_).trans ?_)
  · rw [hpend]
    exact Bool.false_ne_true
  · rw [hput] <;> rfl

/-- Settles O52. -/
theorem stageWritePutsRow : Obligations.StageWritePutsRow := by
  intro s port t name row fields h hlen
  have hpick : (request? 0x05 (name.code :: row :: fields)).bind stageWriteService.pick =
      some (some (name, row.toNat, fields)) := by
    rw [request?_stageWrite hlen]
    rfl
  have hend {u : State} {ans : Answer}
      (hb : stageWriteBody (some (name, row.toNat, fields)) (s.dropRequest port) = (u, ans)) :
      exec (.stageWrite port) s = .next (u.answer port t ans).finish :=
    h.outcome .stageWrite stageWriteService _ rfl hpick rfl hb
  have hpending := commitPending_dropRequest s port
  refine ⟨fun hrow => hend (if_pos hrow), fun hrow hpend => hend ?_, fun b ranges hrow hpend hput => ?_⟩
  · exact (if_neg (Nat.not_le_of_lt hrow)).trans (if_pos (hpending.trans hpend))
  · have hbody := stageWriteBody_put (s := s.dropRequest port) hrow (hpending.trans hpend)
      (by rw [bank_dropRequest]; exact hput)
    refine ⟨fun hgood => hend ?_, fun i hbad => hend ?_⟩
    · rw [hgood] at hbody
      exact hbody
    · rw [hbad] at hbody
      exact hbody

theorem commitNow_valid (h : s.works.validate s.bank = none) :
    s.commitNow = (s.onWorks fun w => w.activate s.bank, .done [[0]]) := by
  unfold commitNow commit
  rw [h]
  rfl

theorem commitNow_fault {f : CommitFault} (h : s.works.validate s.bank = some f) :
    s.commitNow = (s, .done [[1], [f.reason.code], [f.table.code], [byte f.row]]) := by
  unfold commitNow commit
  rw [h]

/-- Settles O53. -/
theorem commitAndDiscard : Obligations.CommitAndDiscard := by
  intro s port t
  have hpending := commitPending_dropRequest s port
  have hrun := running_dropRequest s port
  have hworks := works_dropRequest s port
  have hbank := bank_dropRequest s port
  refine ⟨fun h => ?_, fun h => ?_⟩
  · have hend {u : State} {ans : Answer} (hb : stageCommitBody () (s.dropRequest port) = (u, ans)) :
        exec (.stageCommit port) s = .next (u.answer port t ans).finish :=
      h.outcome .stageCommit stageCommitService () rfl rfl rfl hb
    have hnow (hpend : s.commitPending = false) (hd : s.works.device = .halted) :
        stageCommitBody () (s.dropRequest port) = (s.dropRequest port).commitNow := by
      refine (if_neg ?_).trans (if_neg ?_)
      · rw [hpending, hpend]
        exact Bool.false_ne_true
      · rw [hrun, not_running_of_device hd]
        exact Bool.false_ne_true
    refine ⟨fun hpend => hend (if_pos (hpending.trans hpend)), fun hpend hd => hend ?_,
      fun hpend hd hvalid => ⟨hend ((hnow hpend hd).trans ?_), ?_⟩, fun f hpend hd hvalid =>
        hend ((hnow hpend hd).trans ?_)⟩
    · refine (if_neg ?_).trans (if_pos (hrun.trans (running_of_device hd)))
      rw [hpending, hpend]
      exact Bool.false_ne_true
    · exact (commitNow_valid (by rw [hworks, hbank]; exact hvalid)).trans (by rw [hbank])
    · exact (activate_keeps (q := true) (n := true) s.works s.bank).tables
    · exact commitNow_fault (by rw [hworks, hbank]; exact hvalid)
  · refine h.outcome .stageDiscard stageDiscardService () rfl rfl rfl ?_
    cases port <;> rfl

/-! ### PASS.SEND -/

/-- Settles O57. -/
theorem passSendQueuesFrame : Obligations.PassSendQueuesFrame := by
  intro s port t frame h
  have hworks := works_dropRequest s port
  have hend {u : State} {ans : Answer} (hb : passSendBody frame (s.dropRequest port) = (u, ans)) :
      exec (.passSend port) s = .next (u.answer port t ans).finish :=
    h.outcome .passSend passSendService frame rfl rfl rfl hb
  refine ⟨fun hbad => hend (if_neg (by rw [hbad]; exact Bool.false_ne_true)), fun f hgood hf => ?_⟩
  have hbody : passSendBody frame (s.dropRequest port) =
      if movesValve s.works f then (s.dropRequest port, .refused .inUse)
      else if 16 ≤ s.works.pass.length then (s.dropRequest port, .refused .full)
      else ((s.dropRequest port).onWorks fun w => w.submitPass frame, .done []) := by
    refine (if_pos hgood).trans ?_
    rw [hf]
    dsimp only
    rw [hworks]
    rfl
  refine ⟨fun hmoves => hend (hbody.trans (if_pos hmoves)), fun hstays hfull => hend ?_,
    fun hstays hroom => hend ?_⟩
  · exact (hbody.trans (if_neg (by rw [hstays]; exact Bool.false_ne_true))).trans (if_pos hfull)
  · exact (hbody.trans (if_neg (by rw [hstays]; exact Bool.false_ne_true))).trans
      (if_neg (Nat.not_le_of_lt hroom))

/-! ### Watch points, notice mask and status -/

theorem watchSetBody_point (i : Fin 4) (p : WatchPoint) (s : State) :
    watchSetBody ((byte i.val).toNat, p) s =
      ({ s with watch := s.watch.set i.val p i.isLt }, .done []) := by
  unfold watchSetBody
  dsimp only
  rw [toNat_byte_fin4, fin4?_val]

theorem watchSetBody_range {n : Nat} (h : 4 ≤ n) (p : WatchPoint) (s : State) :
    watchSetBody (n, p) s = (s, .refused .range) := by
  unfold watchSetBody
  dsimp only
  rw [fin4?_of_le h]

theorem knownKind_iff (b : Byte) : knownKind b = true ↔ 1 ≤ b.toNat ∧ b.toNat ≤ 18 := by
  unfold knownKind
  rw [Bool.and_eq_true, decide_eq_true_eq, decide_eq_true_eq]

theorem maskOf_iff (kinds : Bytes) (k : Fin 18) :
    (maskOf kinds)[k] = true ↔ ∃ b ∈ kinds, b.toNat = k.val + 1 := by
  have hat : (maskOf kinds)[k] = kinds.any fun b => b.toNat == k.val + 1 := by
    unfold maskOf
    rw [Fin.getElem_fin, mapRows_at]
    simp
  rw [hat, List.any_eq_true]
  simp only [beq_iff_eq]

theorem request?_noticeMask {kinds : Bytes} (h : kinds.length ≤ 18) :
    request? 0x16 kinds = some (.noticeMask kinds) := by
  unfold request?
  rw [if_neg (by decide), if_neg (by decide), if_neg (by decide), if_neg (by decide), if_neg (by decide),
    if_neg (by decide), if_pos rfl, if_pos h]

/-- Settles O58. -/
theorem deviceRequestsWriteWhatTheyName : Obligations.DeviceRequestsWriteWhatTheyName := by
  intro s port t
  have hworks := works_dropRequest s port
  have hwatch := watch_dropRequest s port
  refine ⟨fun i flags n2 n1 n0 k h => ?_, fun i flags n2 n1 n0 k h hi => ?_, fun i h => ?_,
    fun kinds h hlen => ?_, fun h => ?_⟩
  · refine h.outcome .watchSet watchSetService _ rfl rfl rfl ?_
    exact hwatch ▸ watchSetBody_point i _ (s.dropRequest port)
  · exact h.outcome .watchSet watchSetService _ rfl rfl rfl (watchSetBody_range hi _ _)
  · refine h.outcome .watchClear watchClearService _ rfl rfl rfl ?_
    exact hwatch ▸ watchSetBody_point i WatchPoint.cleared (s.dropRequest port)
  · have hpick : (request? 0x16 kinds).bind noticeMaskService.pick = some kinds := by
      rw [request?_noticeMask hlen]
      rfl
    have hend {u : State} {ans : Answer} (hb : noticeMaskBody kinds (s.dropRequest port) = (u, ans)) :
        exec (.noticeMask port) s = .next (u.answer port t ans).finish :=
      h.outcome .noticeMask noticeMaskService kinds rfl hpick rfl hb
    refine ⟨fun hbad => hend (if_neg fun hall => ?_), fun hgood => ?_⟩
    · obtain ⟨k, hk, hrange⟩ := hbad
      have hknown := (knownKind_iff k).mp (List.all_eq_true.mp hall k hk)
      omega
    · have hall : kinds.all knownKind = true :=
        List.all_eq_true.mpr fun k hk => (knownKind_iff k).mpr (hgood k hk)
      exact ⟨maskOf kinds, _, hend (if_pos hall), rfl, maskOf_iff kinds⟩
  · refine h.outcome .statusRead statusReadService () rfl rfl rfl ?_
    have hitems : (s.dropRequest port).statusItems = s.statusItems := by
      cases port <;> rfl
    show statusReadBody () (s.dropRequest port) = _
    rw [statusReadBody, hitems]
    rfl

/-! ### Requests that are not judged by their own rule -/

theorem requestRow_unknown {code : Byte} (h : code = 0 ∨ 23 < code.toNat) (args : Bytes) :
    requestRow code args = .malformed := by
  have hc : code ≠ 0x0C ∧ code ≠ 0x0E := by
    constructor <;> rintro rfl <;> rcases h with h | h <;> revert h <;> decide
  unfold requestRow
  rw [if_neg hc.1, if_neg hc.2]
  rcases h with rfl | h
  · rfl
  · obtain ⟨m, hm⟩ := Nat.exists_eq_add_of_le' (Nat.succ_le_of_lt h)
    rw [hm]
    rfl

/-- A TIME.READ with arguments is no request (R173). -/
theorem request?_timeRead_args {args : Bytes} (h : args ≠ []) :
    (request? 0x01 args).bind timeReadService.pick = none := by
  have hplain : request? 0x01 args = plainRequest? 0x01 args := rfl
  rw [hplain]
  unfold plainRequest?
  split
  · exact absurd rfl h
  all_goals rfl

theorem serve_refused_privilege {α : Type} {row : RequestRow} {v : Service α} (a : α)
    {e : EntryIx} {st : NodeState} (hnext : s.nextRequest .field = some t) (hrole : t.role = some .service)
    (hrow : requestRow t.code t.args = row) (hpick : (request? t.code t.args).bind v.pick = some a)
    (hmay : v.fieldMay a = false) (hhit : t.hit = .roster e st) :
    (s.serve .field row v).conclude = .next (s.repliedAfter .field t
      (fun w => w.notice .authority (byte e.val) ([byte e.val] ++ beId t.src ++ [t.code]))
      (.refused .privilege)) := by
  refine congrArg (fun x : State => Host.Outcome.next x.finish) ?_
  rw [serve_privilege s .field row v t a hnext hrow hpick (by rw [hmay]; exact standing_forbidden t hrole)]
  unfold authorityNotice
  rw [hhit]

/-- Settles O59. -/
theorem requestsJudgedBeforeTheirRule : Obligations.RequestsJudgedBeforeTheirRule := by
  intro s port t hnext
  have hstands (h : port = .uplink ∨ t.role = some .service) : standing port t true ≠ .stray := by
    rcases h with rfl | h
    · exact nofun
    · cases port
      · exact nofun
      · rw [standing_service t h]
        exact nofun
  refine ⟨fun hp hcode => ?_, fun hp hcode hargs => ?_, fun hp hrole hcode => ?_,
    fun hp hrole hcode hargs e st hhit => ?_, fun hp hrole hcode n1 n0 e st hargs hhit => ?_⟩
  · refine congrArg (fun x : State => Host.Outcome.next x.finish) ?_
    refine serve_malformed s port .malformed malformedService t hnext (requestRow_unknown hcode _) ?_
      (hstands hp)
    cases request? t.code t.args <;> rfl
  · refine congrArg (fun x : State => Host.Outcome.next x.finish) ?_
    exact serve_malformed s port .timeRead timeReadService t hnext (by rw [hcode]; rfl)
      (by rw [hcode]; exact request?_timeRead_args hargs) (hstands hp)
  · subst hp
    refine congrArg (fun x : State => Host.Outcome.next x.finish) ?_
    exact serve_stray s .field .timeRead timeReadService t hnext (by rw [hcode]; rfl)
      fun b => standing_other t b hrole
  · subst hp
    have hserve := serve_refused_privilege (row := .start) (v := startService) () hnext hrole
      (by rw [hcode]; rfl) (by rw [hcode, hargs]; rfl) rfl hhit
    rw [hcode] at hserve
    exact hserve
  · subst hp
    have hserve := serve_refused_privilege (row := .runCancel) (v := runCancelService)
      (0, word16 n1 n0) hnext hrole (by rw [hcode]; rfl) (by rw [hcode, hargs]; rfl) rfl hhit
    rw [hcode] at hserve
    exact hserve

end Sys2Proof.Machine
end

section
/-! PROOF. The conditional writes of entries (O54) and of zones (O55). -/

namespace Sys2Proof.Machine

open Works State

variable {s u : State} {w v : Works} {port : Port} {t : Taken} {e : EntryIx} {z : ZoneIx} {g : Word16}
  {op : EntryIx → State → Except ResultCode Works}

/-! ### The entry's writes -/

namespace State

theorem nodeWrite_stale (h : (s.works.entry e).gen ≠ g) :
    s.nodeWrite (byte e.val).toNat g op = (s, .stale (s.works.entry e).gen) := by
  unfold nodeWrite
  rw [toNat_byte_entry, entryIx?_val]
  exact if_neg h

/-- A write under the current generation carries out its operation and answers the new one (R28). -/
theorem nodeWrite_done (hgen : (s.works.entry e).gen = g) (hop : op e s = .ok w)
    (hnew : (w.entry e).gen = (s.works.entry e).gen + 1) :
    s.nodeWrite (byte e.val).toNat g op =
      ({ s with works := w }, .done [be16 ((s.works.entry e).gen + 1).toNat]) := by
  unfold nodeWrite
  rw [toNat_byte_entry, entryIx?_val]
  refine (if_pos hgen).trans ?_
  rw [hop]
  dsimp only
  rw [genItem, hnew]

end State

namespace Works

/-! ### What the four operations do to the entry (R29 to R32) -/

/-- The entry RESERVE writes. -/
def reservedEntry (node : NodeId) (role : Role) (zone : Option ZoneIx) (n : Entry) : Entry :=
  { Entry.free n.gen with id := node, role := role, zone := zone }

theorem onlyEntry_reserveEntry (w : Works) (e : EntryIx) (node : NodeId) (role : Role)
    (zone : Option ZoneIx) :
    w.OnlyEntry (w.reserveEntry e node role zone) e
      { Entry.free ((w.entry e).gen + 1) with id := node, role := role, zone := zone, state := .reserved } :=
  onlyEntry_nodeTo w e .reserved (reservedEntry node role zone)

theorem onlyEntry_assignEntry {zone : Option ZoneIx} (h : (w.entry e).zone ≠ zone) :
    w.OnlyEntry (w.assignEntry e zone) e { w.entry e with zone := zone, gen := (w.entry e).gen + 1 } := by
  have hassign : w.assignEntry e zone =
      (((w.modEntry e fun n => { n with zone := zone }).bumpEntry e).tellFrost (w.entry e).airZone).tellFrost
        (((w.modEntry e fun n => { n with zone := zone }).bumpEntry e).entry e).airZone := if_neg h
  rw [hassign]
  exact ((onlyEntry_modEntry w e fun n => { n with zone := zone }).modEntry
    fun n => { n with gen := n.gen + 1 }).of_nodes
      (((tellFrost_keeps (q := true) (n := true) _ _).trans (tellFrost_keeps _ _)).nodes rfl)

/-- RELEASE leaves the roster as the change of the one entry. -/
theorem roster_releaseEntry (w : Works) (e : EntryIx) :
    (w.releaseEntry e).roster = (w.nodeTo e .free fun n => Entry.free n.gen).roster := by
  have htell (u : Works) (o : Option ZoneIx) : (u.tellFrost o).roster = u.roster :=
    ((tellFrost_keeps (q := true) (n := true) u o).nodes rfl).1
  unfold releaseEntry
  dsimp only
  split <;> exact htell _ _

theorem onlyEntry_restoreEntry (hinterval : 0 < (w.entry e).interval) (htime : w.time < 0xFFFFFFFF) :
    w.OnlyEntry (w.restoreEntry e) e
      { w.entry e with
        state := .active, badStreak := 0, muteCloses := 0, frames := 0, lastHeard := w.time,
        gen := (w.entry e).gen + 1 } := by
  have hentry := onlyEntry_nodeTo w e .active fun n =>
    { n with badStreak := 0, muteCloses := 0, frames := 0, lastHeard := w.time }
  exact hentry.of_nodes (nowActive_nodes (by rw [hentry.1]; rfl) (by rw [hentry.1]; exact hinterval) htime)

end Works

theorem reserveOp_done {node : NodeId} {r : Byte} {zb : Byte} {role : Role} {zone : Option ZoneIx}
    (hrole : role? r.toNat = some role) (hzone : zoneArg? zb = some zone)
    (hsource : s.works.sourceValid node = true) (hfree : (s.works.entry e).state = .free)
    (hwindows : ∀ k : Fin 4, WinRow.covers s.works.tables.windows[k] node = false)
    (htaken : s.works.idTaken node = false) :
    reserveOp node r zb e s = .ok (s.works.reserveEntry e node role zone) := by
  have hcovered : ((List.finRange 4).any fun k => WinRow.covers s.works.tables.windows[k] node) = false :=
    List.any_eq_false.mpr fun k _ => by rw [hwindows k]; exact Bool.false_ne_true
  unfold reserveOp
  rw [hrole, hzone]
  simp only [hsource, hcovered, htaken, hfree, Bool.not_true, Bool.false_eq_true, if_false, ne_eq,
    not_true_eq_false]

/-- The stale answer of a request's body, as the state before it stood. -/
theorem nodeWrite_stale_dropped (h : (s.works.entry e).gen ≠ g) :
    (s.dropRequest port).nodeWrite (byte e.val).toNat g op =
      (s.dropRequest port, .stale (s.works.entry e).gen) := by
  have hworks := works_dropRequest s port
  exact (nodeWrite_stale (by rw [hworks]; exact h)).trans (by rw [hworks])

/-- A write carried out, as the state before it stood. -/
theorem nodeWrite_done_dropped (hgen : (s.works.entry e).gen = g)
    (hop : op e (s.dropRequest port) = .ok w) (hnew : (w.entry e).gen = (s.works.entry e).gen + 1) :
    (s.dropRequest port).nodeWrite (byte e.val).toNat g op =
      ((s.dropRequest port).onWorks fun _ => w, .done [be16 ((s.works.entry e).gen + 1).toNat]) := by
  have hworks := works_dropRequest s port
  exact (nodeWrite_done (by rw [hworks]; exact hgen) hop (by rw [hworks]; exact hnew)).trans
    (by rw [hworks]; rfl)

theorem onWorks_const (s : State) (f : Works → Works) : (s.onWorks fun _ => f s.works) = s.onWorks f := rfl

/-- Settles O54. -/
theorem nodeWritesAreConditional : Obligations.NodeWritesAreConditional := by
  intro s port t e g1 g0
  have hworks := works_dropRequest s port
  refine ⟨fun op rest hrest h hgen => ⟨?_, ?_, ?_, ?_⟩,
    fun i2 i1 i0 r z role zone h hgen hrole hzone hsource hfree hwindows htaken => ⟨?_, ?_⟩,
    fun z zone h hgen hzone hst hne => ⟨?_, ?_⟩, fun h hgen hst => ⟨?_, ?_, fun x hx => ?_⟩,
    fun h hgen hst hinterval htime => ⟨?_, ?_⟩⟩
  · rintro rfl
    have hlen : rest.length = 5 := by simpa using hrest
    match rest, hlen with
    | [i2, i1, i0, r, z], _ =>
      exact h.outcome .reserve reserveService _ rfl rfl rfl (nodeWrite_stale_dropped hgen)
  · rintro rfl
    have hlen : rest.length = 1 := by simpa using hrest
    match rest, hlen with
    | [z], _ => exact h.outcome .assign assignService _ rfl rfl rfl (nodeWrite_stale_dropped hgen)
  · rintro rfl
    have hlen : rest = [] := by simpa using hrest
    subst hlen
    exact h.outcome .release releaseService _ rfl rfl rfl (nodeWrite_stale_dropped hgen)
  · rintro rfl
    have hlen : rest = [] := by simpa using hrest
    subst hlen
    exact h.outcome .restore restoreService _ rfl rfl rfl (nodeWrite_stale_dropped hgen)
  · refine h.outcome .reserve reserveService _ rfl rfl rfl ?_
    rw [← onWorks_const, hworks]
    refine nodeWrite_done_dropped hgen ?_ (congrArg Entry.gen
      (onlyEntry_reserveEntry s.works e (nodeId i2 i1 i0) role zone).1)
    rw [← hworks]
    exact reserveOp_done hrole hzone (hworks ▸ hsource) (hworks ▸ hfree) (hworks ▸ hwindows)
      (hworks ▸ htaken)
  · exact onlyEntry_reserveEntry _ _ _ _ _
  · refine h.outcome .assign assignService _ rfl rfl rfl ?_
    rw [← onWorks_const, hworks]
    refine nodeWrite_done_dropped hgen ?_ (congrArg Entry.gen (onlyEntry_assignEntry hne).1)
    show assignOp z e _ = _
    unfold assignOp
    rw [hzone, hworks]
    exact if_neg hst
  · exact onlyEntry_assignEntry hne
  · refine h.outcome .release releaseService _ rfl rfl rfl ?_
    rw [← onWorks_const, hworks]
    refine nodeWrite_done_dropped hgen ?_ ?_
    · unfold releaseOp
      rw [hworks]
      exact if_neg hst
    · rw [entry_of_roster (roster_releaseEntry s.works e), entry_nodeTo]
      rfl
  · rw [entry_of_roster (roster_releaseEntry s.works e)]
    exact entry_nodeTo _ _ _ _
  · rw [entry_of_roster (roster_releaseEntry s.works e)]
    exact (onlyEntry_nodeTo s.works e .free fun n => Entry.free n.gen).2.1 x hx
  · refine h.outcome .restore restoreService _ rfl rfl rfl ?_
    rw [← onWorks_const, hworks]
    refine nodeWrite_done_dropped hgen ?_ (congrArg Entry.gen (onlyEntry_restoreEntry hinterval htime).1)
    unfold restoreOp
    rw [hworks]
    exact if_pos hst
  · exact onlyEntry_restoreEntry hinterval htime

/-! ### ZONE.CONTROL_IF -/

theorem controlArg?_of_le {b : Byte} (h : b.toNat ≤ 2) : ∃ o, controlArg? b = some o := by
  have hb : b = 0x00 ∨ b = 0x01 ∨ b = 0x02 := by bv_omega
  rcases hb with rfl | rfl | rfl
  · exact ⟨_, rfl⟩
  · exact ⟨_, rfl⟩
  · exact ⟨_, rfl⟩

/-- A control argument and the value it gives a control that now stands at old (R85). -/
theorem controlArg?_value {b : Byte} {old new : Bool}
    (h : b = 0 ∧ new = false ∨ b = 1 ∧ new = true ∨ b = 2 ∧ new = old) :
    ∃ o, controlArg? b = some o ∧ o.getD old = new := by
  rcases h with ⟨rfl, rfl⟩ | ⟨rfl, rfl⟩ | ⟨rfl, rfl⟩
  · exact ⟨_, rfl, rfl⟩
  · exact ⟨_, rfl, rfl⟩
  · exact ⟨_, rfl, rfl⟩

namespace Works

/-- The zone's controls written, the zone marked in a step that has marked none yet (R85, R87). -/
def controlled (w : Works) (z : ZoneIx) (auto protect : Bool) : Works :=
  { w.modZone z fun x => { x with auto := auto, protect := protect, gen := x.gen + 1 } with
    touched := [z] }

theorem zone_controlled_self (w : Works) (z : ZoneIx) (a p : Bool) :
    (w.controlled z a p).zone z =
      { w.zone z with auto := a, protect := p, gen := (w.zone z).gen + 1 } := zone_modZone_self _ _ _

theorem zone_controlled_ne (w : Works) {z y : ZoneIx} (a p : Bool) (h : y ≠ z) :
    (w.controlled z a p).zone y = w.zone y := (zone_modZone _ _ _ _).trans (if_neg h)

theorem modZone_modZone (w : Works) (z : ZoneIx) (f g : Zone → Zone) :
    (w.modZone z f).modZone z g = w.modZone z (g ∘ f) := by
  have hrow : upd (upd w.zones z f) z g = upd w.zones z (g ∘ f) := by
    simp [upd, Vector.set_set]
  simp only [modZone, hrow]

theorem writeControls_eq (w : Works) (z : ZoneIx) (a p : Option Bool) (h : w.touched = []) :
    writeControls w z a p =
      if a.getD (w.zone z).auto = (w.zone z).auto ∧ p.getD (w.zone z).protect = (w.zone z).protect then w
      else w.controlled z (a.getD (w.zone z).auto) (p.getD (w.zone z).protect) := by
  have htouch (f : Zone → Zone) : (w.modZone z f).touch z =
      { w.modZone z ((fun x => { x with gen := x.gen + 1 }) ∘ f) with touched := [z] } := by
    rw [← modZone_modZone, touch, if_neg (by simp [h, touched_modZone]), touched_modZone, h]
  exact ite_congr rfl (fun _ => rfl) fun _ => htouch _

/-- FRW does nothing on a control that changes in a CLEAR zone (R112, R113). -/
theorem protectionChanged_clear (h : (w.zone z).frost = .clear) (old : Bool) :
    protectionChanged w z old = w := by
  have hoff : w.protectionOff z (fun w => w.withdraw z) = w := by
    unfold protectionOff
    rw [h]
  have hon : w.protectionPossible z .control = w :=
    if_neg fun hc => by rw [h] at hc; exact absurd hc.1 (by decide)
  unfold protectionChanged
  split
  · exact hoff
  · exact hon
  · rfl

end Works

/-- Settles O55. -/
theorem zoneControlsAreConditional : Obligations.ZoneControlsAreConditional := by
  intro s port t z g1 g0
  have hworks := works_dropRequest s port
  refine ⟨fun a p h ha hp hgen => ?_, fun a p auto prot h hgen hclear htouched ha hp => ?_,
    fun h => ⟨fun hgen => ?_, fun hgen hvalve => ?_, fun hgen hvalve => ?_⟩⟩
  · obtain ⟨oa, hoa⟩ := controlArg?_of_le ha
    obtain ⟨op, hop⟩ := controlArg?_of_le hp
    refine h.outcome .zoneControlSet zoneControlService _ rfl rfl rfl ?_
    show zoneControlBody (some _) _ = _
    unfold zoneControlBody
    dsimp only
    rw [toNat_byte_zone, zoneIx?_val, hoa, hop, hworks]
    exact if_neg hgen
  · obtain ⟨oa, hoa, ha⟩ := controlArg?_value ha
    obtain ⟨op, hop, hp⟩ := controlArg?_value hp
    have hset : setControls s.works z oa op = writeControls s.works z oa op := by
      refine protectionChanged_clear ?_ _
      rw [writeControls_eq _ _ _ _ htouched]
      split
      · exact hclear
      · show ((s.works.modZone z _).zone z).frost = _
        rw [zone_modZone_self]
        exact hclear
    have heq := writeControls_eq s.works z oa op htouched
    rw [ha, hp] at heq
    have hdone : exec (.zoneControlIfSet port) s = .next (s.repliedAfter port t
        (fun _ => setControls s.works z oa op)
        (.done [be16 ((setControls s.works z oa op).zone z).gen.toNat])) := by
      refine h.outcome .zoneControlSet zoneControlService _ rfl rfl rfl ?_
      show zoneControlBody (some _) _ = _
      unfold zoneControlBody
      dsimp only
      rw [toNat_byte_zone, zoneIx?_val, hoa, hop, hworks]
      exact if_pos hgen
    refine ⟨_, _, hdone, ?_, ?_⟩ <;> rw [hset, heq]
    · split
      · rfl
      · rw [zone_controlled_self]
    · by_cases hsame : auto = (s.works.zone z).auto ∧ prot = (s.works.zone z).protect
      · rw [if_pos hsame, hsame.1, hsame.2, ← htouched]
        exact ⟨rfl, fun _ _ => rfl, rfl⟩
      · rw [if_neg hsame]
        refine ⟨?_, fun y hy => zone_controlled_ne _ _ _ hy, ?_⟩
        · rw [zone_controlled_self]
        · unfold controlled modZone
          rw [← htouched]
  · refine h.outcome .clearValve clearValveService _ rfl rfl rfl ?_
    show clearValveBody _ _ = _
    unfold clearValveBody
    dsimp only
    rw [toNat_byte_zone, zoneIx?_val, hworks]
    exact if_pos hgen
  · refine h.outcome .clearValve clearValveService _ rfl rfl rfl ?_
    show clearValveBody _ _ = _
    unfold clearValveBody
    dsimp only
    rw [toNat_byte_zone, zoneIx?_val, hworks]
    exact (if_neg (not_not.mpr hgen)).trans (if_pos hvalve)
  · refine h.outcome .clearValve clearValveService _ rfl rfl rfl ?_
    show clearValveBody _ _ = _
    unfold clearValveBody
    dsimp only
    rw [toNat_byte_zone, zoneIx?_val, hworks]
    refine (if_neg (not_not.mpr hgen)).trans ((if_neg (not_not.mpr hvalve)).trans ?_)
    rw [State.onWorks, hworks]
    rfl

end Sys2Proof.Machine
end

section
/-! PROOF. What the operations of RDP, VCU and FRW change: the valves, the commands, the runs, and what is
left in RDP's hands. -/

namespace Sys2Proof.Machine

/-- The run in another state, with what belongs to its old one dropped (R120, R131). -/
def Run.inState (r : Run) (new : RunState) (x : Option RunCause) : Run :=
  { r with
    state := new, closeCause := x,
    gatherDeadline := if new = .gathering then r.gatherDeadline else none,
    flowDeadline := if new = .flowing then r.flowDeadline else none }

namespace Works

variable {q k : Bool} {u v w : Works} {z y : ZoneIx} {i j : SlotIx} {r : Run} {c : Cmd}

/-! ### Operations that move no valve -/

/-- The operation keeps the tables, the roster and the time and latches at most NOTICE_GAP; with q set it
owes no pass and leaves no close that was not owed before, and with k set it moves no valve and gives no
command. -/
structure Calm (q k : Bool) (w v : Works) : Prop where
  tables : v.tables = w.tables := by exact rfl
  roster : v.roster = w.roster := by exact rfl
  time : v.time = w.time := by exact rfl
  latches : v.latches = { w.latches with noticeGap := v.latches.noticeGap } := by exact rfl
  owed : q = true → v.offer = w.offer ∧ v.closes = w.closes := by exact fun _ => ⟨rfl, rfl⟩
  cmdNumber : k = true → v.cmdNumber = w.cmdNumber := by exact fun _ => rfl
  valve : k = true → ∀ z, (v.zone z).valve = (w.zone z).valve := by exact fun _ _ => rfl
  cmd : k = true → ∀ z, (v.zone z).cmd = (w.zone z).cmd := by exact fun _ _ => rfl

theorem Calm.refl (w : Works) : Calm q k w w := {}

theorem Calm.trans (a : Calm q k u v) (b : Calm q k v w) : Calm q k u w where
  tables := b.tables.trans a.tables
  roster := b.roster.trans a.roster
  time := b.time.trans a.time
  latches := by rw [b.latches, a.latches]
  owed h := ⟨(b.owed h).1.trans (a.owed h).1, (b.owed h).2.trans (a.owed h).2⟩
  cmdNumber h := (b.cmdNumber h).trans (a.cmdNumber h)
  valve h z := (b.valve h z).trans (a.valve h z)
  cmd h z := (b.cmd h z).trans (a.cmd h z)

/-- A claim about less. -/
theorem Calm.weaken (a : Calm true true u v) : Calm q k u v :=
  { a with
    owed := fun _ => a.owed rfl, cmdNumber := fun _ => a.cmdNumber rfl,
    valve := fun _ => a.valve rfl, cmd := fun _ => a.cmd rfl }

theorem Calm.ite {p : Prop} [Decidable p] (a : Calm q k w u) (b : Calm q k w v) :
    Calm q k w (if p then u else v) := by
  split
  · exact a
  · exact b

theorem Calm.foldl {α : Type} {g : Works → α → Works} (l : List α) (w : Works)
    (h : ∀ w x, Calm q k w (g w x)) : Calm q k w (l.foldl g w) :=
  foldl_keeps (Calm q k) Calm.refl (fun _ _ _ => Calm.trans) g h l w

theorem Calm.idle (a : Calm true k u v) (h : u.Idle) : v.Idle :=
  ⟨(a.owed rfl).1.trans h.1, (a.owed rfl).2.trans h.2⟩

theorem Calm.cfg (a : Calm q k u v) (z : ZoneIx) : v.cfg z = u.cfg z := by simp [Works.cfg, a.tables]

theorem Calm.site (a : Calm q k u v) : v.site = u.site := by simp [Works.site, a.tables]

theorem Calm.demandOf (a : Calm q k u v) (z : ZoneIx) : v.demandOf z = u.demandOf z := by
  simp [Works.demandOf, a.cfg]

theorem Calm.demandSum (a : Calm q k u v) (zs : List ZoneIx) : v.demandSum zs = u.demandSum zs := by
  unfold Works.demandSum
  congr 1
  exact List.map_congr_left fun z _ => a.demandOf z

theorem Calm.bounds (a : Calm q k u v) : v.latches.bounds = u.latches.bounds := by rw [a.latches]

/-- A zone changes in neither valve nor command. -/
theorem modZone_calm (w : Works) (z : ZoneIx) (g : Zone → Zone)
    (hv : ∀ x, (g x).valve = x.valve) (hc : ∀ x, (g x).cmd = x.cmd) : Calm q k w (w.modZone z g) where
  valve _ x := by
    rw [zone_modZone]
    split
    · exact hv _
    · rfl
  cmd _ x := by
    rw [zone_modZone]
    split
    · exact hc _
    · rfl

/-- A zone's valve or command changes. -/
theorem modZone_stirs (w : Works) (z : ZoneIx) (g : Zone → Zone) : Calm q false w (w.modZone z g) where
  cmdNumber := nofun
  valve := nofun
  cmd := nofun

theorem touch_calm (w : Works) (z : ZoneIx) : Calm q k w (w.touch z) := by
  unfold touch
  split
  · exact Calm.refl w
  · exact (modZone_calm w z (fun x => { x with gen := x.gen + 1 }) (fun _ => rfl) fun _ => rfl).trans {}

theorem modRun_calm (w : Works) (i : SlotIx) (g : Run → Run) : Calm q k w (w.modRun i g) := {}

theorem modLine_calm (w : Works) (g : Line → Line) : Calm q k w (w.modLine g) := {}

theorem syncRunSlot_calm (w : Works) (z : ZoneIx) : Calm q k w (w.syncRunSlot z) :=
  Calm.ite (Calm.refl w)
    ((modZone_calm w z _ (fun _ => by rfl) fun _ => by rfl).trans (touch_calm _ z))

theorem putEntry_calm (w : Works) (i : SlotIx) (z : ZoneIx) (g : RunEntry → RunEntry) :
    Calm q k w (w.putEntry i z g) := (modRun_calm w i _).trans (syncRunSlot_calm _ z)

theorem notice_calm (w : Works) (n : NoticeKind) (subject : Byte) (detail : Bytes) :
    Calm q k w (w.notice n subject detail) := by
  unfold notice
  split
  · split
    · exact {}
    · exact {}
  · exact {}

theorem submitUrgent_calm (w : Works) (n : Byte) (dst : NodeId) (p : Bytes) :
    Calm q k w (w.submitUrgent n dst p) := by
  unfold submitUrgent
  split
  · exact {}
  · exact {}

theorem submitCommand_calm (w : Works) (n : Byte) (dst : NodeId) (p : Bytes) :
    Calm q k w (w.submitCommand n dst p) := by
  unfold submitCommand
  split
  · exact {}
  · exact {}

/-! ### The main line -/

/-- Only the main line changes. -/
def OnlyLine (w v : Works) : Prop := v = { w with line := v.line }

theorem OnlyLine.refl (w : Works) : OnlyLine w w := rfl

theorem OnlyLine.trans (a : OnlyLine u v) (b : OnlyLine v w) : OnlyLine u w := by
  unfold OnlyLine at *
  rw [b, a]

theorem OnlyLine.ite {p : Prop} [Decidable p] (a : OnlyLine w u) (b : OnlyLine w v) :
    OnlyLine w (if p then u else v) := by
  split
  · exact a
  · exact b

theorem OnlyLine.calm (a : OnlyLine w v) : Calm q k w v := by
  rw [a]
  exact {}

theorem OnlyLine.runs (a : OnlyLine w v) : v.runs = w.runs := by
  rw [a]

theorem OnlyLine.zones (a : OnlyLine w v) : v.zones = w.zones := by
  rw [a]

theorem modLine_onlyLine (w : Works) (g : Line → Line) : OnlyLine w (w.modLine g) := rfl

theorem beginPulse_onlyLine (w : Works) : OnlyLine w w.beginPulse := by
  unfold beginPulse
  split
  · exact modLine_onlyLine w _
  · exact OnlyLine.refl w

theorem requestPulse_onlyLine (w : Works) (o : Output) (on : Bool) : OnlyLine w (w.requestPulse o on) :=
  (modLine_onlyLine w _).trans (beginPulse_onlyLine _)

theorem enterPriming_onlyLine (w : Works) : OnlyLine w w.enterPriming :=
  (modLine_onlyLine w _).trans (requestPulse_onlyLine _ _ _)

theorem enterStopping_onlyLine (w : Works) : OnlyLine w w.enterStopping :=
  ((modLine_onlyLine w _).trans (requestPulse_onlyLine _ _ _)).trans (requestPulse_onlyLine _ _ _)

theorem demandRise_onlyLine (w : Works) : OnlyLine w w.demandRise := by
  unfold demandRise
  dsimp only
  split
  · exact (modLine_onlyLine w _).trans (enterPriming_onlyLine _)
  · exact ((modLine_onlyLine w _).trans (modLine_onlyLine _ _)).trans (requestPulse_onlyLine _ _ _)
  · exact modLine_onlyLine w _

theorem demandFall_onlyLine (w : Works) : OnlyLine w w.demandFall := by
  unfold demandFall
  dsimp only
  split
  · exact OnlyLine.ite (modLine_onlyLine w _) ((modLine_onlyLine w _).trans (enterStopping_onlyLine _))
  · exact (modLine_onlyLine w _).trans (enterStopping_onlyLine _)
  · exact modLine_onlyLine w _

theorem tellLine_onlyLine (w : Works) : OnlyLine w w.tellLine :=
  OnlyLine.ite (OnlyLine.ite (OnlyLine.refl w) (demandRise_onlyLine w))
    (OnlyLine.ite (demandFall_onlyLine w) (OnlyLine.refl w))

theorem openReported_onlyLine (w : Works) : OnlyLine w w.openReported :=
  OnlyLine.ite (OnlyLine.refl w)
    (OnlyLine.ite ((modLine_onlyLine w _).trans (requestPulse_onlyLine _ _ _)) (OnlyLine.refl w))

/-- An event whose own work owes neither a pass nor a close ends with the report to MLD (R122). -/
theorem rdpEvent_of_idle {f : Works → Works} (h : (f w).Idle) : w.rdpEvent f = (f w).tellLine := by
  obtain ⟨hoffer, hcloses⟩ := h
  show settleEvents (_ + 1) (f w) = _
  rw [settleEvents, hoffer, hcloses]
  rfl

/-! ### Valves and commands -/

theorem zone_touch_ne (w : Works) (h : y ≠ z) : (w.touch z).zone y = w.zone y := by
  unfold touch
  split
  · rfl
  · exact (zone_modZone w z y _).trans (if_neg h)

theorem zone_setCmd_ne (w : Works) (d : Option Cmd) (h : y ≠ z) : (w.setCmd z d).zone y = w.zone y :=
  (zone_modZone w z y _).trans (if_neg h)

theorem zone_setValve_ne (w : Works) (s : ValveState) (h : y ≠ z) : (w.setValve z s).zone y = w.zone y := by
  unfold setValve
  split
  · rfl
  · rw [zone_touch_ne _ h, zone_modZone, if_neg h]

theorem setCmd_stirs (w : Works) (z : ZoneIx) (d : Option Cmd) : Calm q false w (w.setCmd z d) :=
  modZone_stirs w z _

theorem setValve_stirs (w : Works) (z : ZoneIx) (s : ValveState) : Calm q false w (w.setValve z s) :=
  Calm.ite (Calm.refl w) ((modZone_stirs w z _).trans (touch_calm _ z))

@[simp] theorem cmdNumber_touch (w : Works) (z : ZoneIx) : (w.touch z).cmdNumber = w.cmdNumber :=
  (touch_calm (q := true) w z).cmdNumber rfl

@[simp] theorem cmdNumber_setCmd (w : Works) (z : ZoneIx) (d : Option Cmd) :
    (w.setCmd z d).cmdNumber = w.cmdNumber := rfl

@[simp] theorem cmdNumber_setValve (w : Works) (z : ZoneIx) (s : ValveState) :
    (w.setValve z s).cmdNumber = w.cmdNumber := by
  unfold setValve
  split
  · rfl
  · exact cmdNumber_touch _ _

@[simp] theorem runs_setCmd (w : Works) (z : ZoneIx) (d : Option Cmd) : (w.setCmd z d).runs = w.runs := rfl

@[simp] theorem runs_setValve (w : Works) (z : ZoneIx) (s : ValveState) :
    (w.setValve z s).runs = w.runs := by
  unfold setValve
  split
  · rfl
  · exact runs_touch _ _

@[simp] theorem line_touch (w : Works) (z : ZoneIx) : (w.touch z).line = w.line := by
  unfold touch
  split <;> rfl

@[simp] theorem line_setValve (w : Works) (z : ZoneIx) (s : ValveState) :
    (w.setValve z s).line = w.line := by
  unfold setValve
  split
  · rfl
  · exact line_touch _ _

@[simp] theorem runs_submitCommand (w : Works) (n : Byte) (dst : NodeId) (p : Bytes) :
    (w.submitCommand n dst p).runs = w.runs := by
  unfold submitCommand
  split <;> rfl

/-- The limit an attempt carries (R150). -/
def attemptLimit (w : Works) (z : ZoneIx) (c : Cmd) : Nat :=
  match c.kind with
  | .openValve => w.openLimit z
  | .closeValve => 0

/-- The command after one attempt more (R150). -/
def attempted (w : Works) (z : ZoneIx) (c : Cmd) : Cmd :=
  { c with
    attempts := c.attempts + 1, deadline := some (after w.time w.site.ackWait),
    limited := c.limited || decide (0 < w.attemptLimit z c) }

/-- An attempt at an OPEN goes out through COMMAND with its limit. -/
theorem attempt_open (h : (w.zone z).cmd = some c) (hk : c.kind = .openValve) {id : NodeId}
    (hid : (w.cfg z).valveNode = some id) :
    w.attempt z = (w.setCmd z (some (w.attempted z c))).submitCommand kindValveCmd id
      ([0x01, c.number] ++ be16 (w.openLimit z)) := by
  unfold attempt attempted attemptLimit
  rw [h]
  dsimp only
  rw [hid, hk] <;> rfl

/-- An attempt at a CLOSE goes out through URGENT with limit 0. -/
theorem attempt_close (h : (w.zone z).cmd = some c) (hk : c.kind = .closeValve) {id : NodeId}
    (hid : (w.cfg z).valveNode = some id) :
    w.attempt z = (w.setCmd z (some (w.attempted z c))).submitUrgent kindValveCmd id
      [0x02, c.number, 0, 0] := by
  have hlimit : [0x02, c.number] ++ be16 0 = [0x02, c.number, 0, 0] :=
    congrArg ([0x02, c.number] ++ ·) (by decide)
  rw [← hlimit]
  unfold attempt attempted attemptLimit
  rw [h]
  dsimp only
  rw [hid, hk] <;> rfl

/-- An attempt counts and times the command and is submitted, taken or not. -/
theorem zones_attempt (h : (w.zone z).cmd = some c) :
    (w.attempt z).zones = (w.setCmd z (some (w.attempted z c))).zones := by
  unfold attempt attempted attemptLimit
  rw [h]
  dsimp only
  split
  · exact zones_submitCommand _ _ _ _
  · exact zones_submitUrgent _ _ _ _
  · rfl

@[simp] theorem runs_attempt (w : Works) (z : ZoneIx) : (w.attempt z).runs = w.runs := by
  unfold attempt
  split
  · rfl
  · dsimp only
    split
    · exact runs_submitCommand _ _ _ _
    · exact runs_submitUrgent _ _ _ _
    · rfl

theorem cmdNumber_attempt (w : Works) (z : ZoneIx) : (w.attempt z).cmdNumber = w.cmdNumber := by
  unfold attempt
  split
  · rfl
  · dsimp only
    split
    · exact (submitCommand_calm (q := true) _ _ _ _).cmdNumber rfl
    · exact (submitUrgent_calm (q := true) _ _ _ _).cmdNumber rfl
    · rfl

theorem attempt_stirs (w : Works) (z : ZoneIx) : Calm q false w (w.attempt z) := by
  unfold attempt
  split
  · exact Calm.refl w
  · dsimp only
    split
    · exact (setCmd_stirs w z _).trans (submitCommand_calm _ _ _ _)
    · exact (setCmd_stirs w z _).trans (submitUrgent_calm _ _ _ _)
    · exact setCmd_stirs w z _

/-- The command that a zone is given: a new number, and its first attempt where it is sent at once (R149,
R150). -/
structure NewCmd (w : Works) (what : CmdKind) (again : Bool) (c : Cmd) : Prop where
  kind : c.kind = what
  renewal : c.renewal = again
  number : c.number = w.cmdNumber
  followOn : c.followOn = false
  attempts : c.attempts = if what = .closeValve ∨ w.lineSends = true then 1 else 0
  deadline : what = .closeValve ∨ w.lineSends = true → c.deadline = some (after w.time w.site.ackWait)

/-- The command as it stands before its first attempt, and the works that hold it. -/
def freshCmd (w : Works) (kind : CmdKind) (renewal : Bool) : Cmd :=
  { kind := kind, number := w.cmdNumber, attempts := 0, deadline := none, followOn := false, limited := false,
    renewal := renewal }

def withFresh (w : Works) (z : ZoneIx) (kind : CmdKind) (renewal : Bool) : Works :=
  { w.setCmd z (some (w.freshCmd kind renewal)) with cmdNumber := w.cmdNumber + 1 }

theorem zone_withFresh_self (w : Works) (z : ZoneIx) (kind : CmdKind) (renewal : Bool) :
    (w.withFresh z kind renewal).zone z = { w.zone z with cmd := some (w.freshCmd kind renewal) } :=
  zone_modZone_self w z _

theorem zone_withFresh_ne (w : Works) (kind : CmdKind) (renewal : Bool) (h : y ≠ z) :
    (w.withFresh z kind renewal).zone y = w.zone y := zone_setCmd_ne w _ h

theorem createCmd_eq (w : Works) (z : ZoneIx) (kind : CmdKind) (renewal : Bool) :
    w.createCmd z kind renewal =
      if kind = CmdKind.closeValve ∨ w.lineSends = true then (w.withFresh z kind renewal).attempt z
      else w.withFresh z kind renewal := rfl

theorem zone_createCmd_self (w : Works) (z : ZoneIx) (kind : CmdKind) (renewal : Bool) :
    ∃ c, (w.createCmd z kind renewal).zone z = { w.zone z with cmd := some c } ∧ NewCmd w kind renewal c := by
  have hfresh := zone_withFresh_self w z kind renewal
  rw [createCmd_eq]
  by_cases h : kind = CmdKind.closeValve ∨ w.lineSends = true
  · rw [if_pos h]
    refine ⟨(w.withFresh z kind renewal).attempted z (w.freshCmd kind renewal), ?_,
      ⟨rfl, rfl, rfl, rfl, (if_pos h).symm, fun _ => rfl⟩⟩
    rw [zone, zones_attempt (congrArg Zone.cmd hfresh)]
    exact (zone_modZone_self _ z _).trans (by rw [hfresh])
  · rw [if_neg h]
    exact ⟨_, hfresh, ⟨rfl, rfl, rfl, rfl, (if_neg h).symm, fun hs => absurd hs h⟩⟩

theorem zone_createCmd_ne (w : Works) (kind : CmdKind) (renewal : Bool) (h : y ≠ z) :
    (w.createCmd z kind renewal).zone y = w.zone y := by
  rw [createCmd_eq]
  split
  · rw [zone, zones_attempt (congrArg Zone.cmd (zone_withFresh_self w z kind renewal))]
    exact (zone_setCmd_ne _ _ h).trans (zone_withFresh_ne w kind renewal h)
  · exact zone_withFresh_ne w kind renewal h

@[simp] theorem runs_createCmd (w : Works) (z : ZoneIx) (kind : CmdKind) (renewal : Bool) :
    (w.createCmd z kind renewal).runs = w.runs := by
  rw [createCmd_eq]
  split
  · exact runs_attempt _ _
  · rfl

@[simp] theorem cmdNumber_createCmd (w : Works) (z : ZoneIx) (kind : CmdKind) (renewal : Bool) :
    (w.createCmd z kind renewal).cmdNumber = w.cmdNumber + 1 := by
  rw [createCmd_eq]
  split
  · exact cmdNumber_attempt _ _
  · rfl

theorem createCmd_stirs (w : Works) (z : ZoneIx) (kind : CmdKind) (renewal : Bool) :
    Calm q false w (w.createCmd z kind renewal) := by
  have hfresh : Calm q false w (w.withFresh z kind renewal) :=
    (setCmd_stirs w z _).trans { cmdNumber := nofun }
  rw [createCmd_eq]
  exact Calm.ite (hfresh.trans (attempt_stirs _ z)) hfresh

theorem openRequest_stirs (w : Works) (z : ZoneIx) : Calm q false w (w.openRequest z) :=
  (setValve_stirs w z _).trans (createCmd_stirs _ z _ _)

theorem closeNow_stirs (w : Works) (z : ZoneIx) : Calm q false w (w.closeNow z) :=
  ((setCmd_stirs w z _).trans (setValve_stirs _ z _)).trans (createCmd_stirs _ z _ _)

theorem closeRequest_stirs (w : Works) (z : ZoneIx) : Calm false false w (w.closeRequest z) := by
  unfold closeRequest
  split
  · exact closeNow_stirs w z
  · refine Calm.ite (((setCmd_stirs w z none).trans (setValve_stirs _ z .closed)).trans ?_)
      (closeNow_stirs w z)
    exact { owed := nofun, cmdNumber := nofun, valve := nofun, cmd := nofun }
  · exact closeNow_stirs w z
  · exact setCmd_stirs w z _
  · exact Calm.refl w
  · exact Calm.refl w
  · exact Calm.refl w

theorem setFollowOn_stirs (w : Works) (z : ZoneIx) : Calm q false w (w.setFollowOn z) := by
  unfold setFollowOn
  split
  · exact setCmd_stirs w z _
  · exact Calm.refl w

theorem renew_stirs (w : Works) (z : ZoneIx) : Calm q false w (w.renew z) := createCmd_stirs w z _ _

@[simp] theorem runs_closeNow (w : Works) (z : ZoneIx) : (w.closeNow z).runs = w.runs := by
  simp [closeNow]

@[simp] theorem runs_openRequest (w : Works) (z : ZoneIx) : (w.openRequest z).runs = w.runs := by
  simp [openRequest]

@[simp] theorem runs_closeRequest (w : Works) (z : ZoneIx) : (w.closeRequest z).runs = w.runs := by
  unfold closeRequest
  split
  · exact runs_closeNow w z
  · split
    · exact runs_setValve (w.setCmd z none) z .closed
    · exact runs_closeNow w z
  · exact runs_closeNow w z
  · rfl
  · rfl
  · rfl
  · rfl

@[simp] theorem runs_setFollowOn (w : Works) (z : ZoneIx) : (w.setFollowOn z).runs = w.runs := by
  unfold setFollowOn
  split <;> rfl

@[simp] theorem cmdNumber_closeNow (w : Works) (z : ZoneIx) : (w.closeNow z).cmdNumber = w.cmdNumber + 1 := by
  simp [closeNow]

theorem zone_closeNow_ne (w : Works) (h : y ≠ z) : (w.closeNow z).zone y = w.zone y := by
  rw [closeNow, zone_createCmd_ne _ _ _ h, zone_setValve_ne _ _ h, zone_setCmd_ne _ _ h]

theorem zone_closeNow_self (w : Works) (z : ZoneIx) :
    ((w.closeNow z).zone z).valve = .closing
      ∧ ∃ c, ((w.closeNow z).zone z).cmd = some c ∧ NewCmd w .closeValve false c
        ∧ c.attempts = 1 ∧ c.deadline = some (after w.time w.site.ackWait) := by
  obtain ⟨c, hc, hnew⟩ := zone_createCmd_self ((w.setCmd z none).setValve z .closing) z .closeValve false
  have hcalm := (setCmd_stirs (q := true) w z none).trans (setValve_stirs _ z .closing)
  have hdeadline := hnew.deadline (Or.inl rfl)
  rw [hcalm.time, hcalm.site] at hdeadline
  have hattempts : c.attempts = 1 := hnew.attempts.trans (if_pos (Or.inl rfl))
  refine ⟨?_, c, congrArg Zone.cmd hc,
    ⟨hnew.kind, hnew.renewal, hnew.number.trans (cmdNumber_setValve _ _ _), hnew.followOn,
      hattempts.trans (if_pos (Or.inl rfl)).symm, fun _ => hdeadline⟩, hattempts, hdeadline⟩
  rw [closeNow, hc]
  exact (zone_setValve_valve _ z z .closing).trans (if_pos rfl)

/-- An OPEN valve is asked to close (R156). -/
theorem closeRequest_opened (h : (w.zone z).valve = .opened) : w.closeRequest z = w.closeNow z := by
  unfold closeRequest
  rw [h]

/-! ### Runs -/

@[simp] theorem runs_syncRunSlot (w : Works) (z : ZoneIx) : (w.syncRunSlot z).runs = w.runs := by
  unfold syncRunSlot
  dsimp only
  split
  · rfl
  · exact runs_touch _ _

theorem run_putEntry_self (w : Works) (i : SlotIx) (z : ZoneIx) (g : RunEntry → RunEntry) :
    (w.putEntry i z g).run i = (w.run i).map fun r => r.modEntry z g := by
  rw [run, putEntry, runs_syncRunSlot]
  exact run_modRun_self w i _

theorem run_putEntry_ne (w : Works) (z : ZoneIx) (g : RunEntry → RunEntry) (h : j ≠ i) :
    (w.putEntry i z g).run j = w.run j := by
  rw [run, putEntry, runs_syncRunSlot]
  exact (run_modRun w i j _).trans (if_neg h)

theorem startFlowDeadline_calm (w : Works) (i : SlotIx) : Calm q k w (w.startFlowDeadline i) := by
  unfold startFlowDeadline
  split
  · exact modRun_calm w i _
  · exact Calm.refl w

theorem nowFlowing_calm (w : Works) (i : SlotIx) : Calm q k w (w.nowFlowing i) := by
  have h : Calm q k w (if i = 0 then w.frostFlows else w) := Calm.ite (modLine_calm w _) (Calm.refl w)
  exact Calm.ite (h.trans (startFlowDeadline_calm _ i)) h

theorem runNotice_calm (w : Works) (i : SlotIx) (o : Option RunState) : Calm q k w (w.runNotice i o) := by
  unfold runNotice
  split
  · exact notice_calm w _ _ _
  · exact Calm.refl w

theorem setRunState_calm (w : Works) (i : SlotIx) (new : RunState) (x : Option RunCause) :
    Calm q k w (w.setRunState i new x) := by
  unfold setRunState
  split
  · exact Calm.refl w
  · refine Calm.ite (Calm.refl w) ?_
    have h (g : Run → Run) (o) : Calm q k w ((w.modRun i g).runNotice i o) :=
      (modRun_calm w i g).trans (runNotice_calm _ i o)
    exact Calm.ite ((h _ _).trans (nowFlowing_calm _ i)) (h _ _)

/-- The run of one slot changes state: its entries stand, and so do the other runs and every zone. -/
structure Restates (i : SlotIx) (w v : Works) : Prop where
  zones : v.zones = w.zones := by exact rfl
  others : ∀ j, j ≠ i → v.run j = w.run j := by exact fun _ _ => rfl
  entries : (v.run i).map Run.entries = (w.run i).map Run.entries := by exact rfl

theorem Restates.refl (w : Works) : Restates i w w := {}

theorem Restates.trans (a : Restates i u v) (b : Restates i v w) : Restates i u w where
  zones := b.zones.trans a.zones
  others j h := (b.others j h).trans (a.others j h)
  entries := b.entries.trans a.entries

theorem Restates.ite {p : Prop} [Decidable p] (a : Restates i w u) (b : Restates i w v) :
    Restates i w (if p then u else v) := by
  split
  · exact a
  · exact b

theorem Restates.of_same (hz : v.zones = w.zones) (hr : v.runs = w.runs) : Restates i w v where
  zones := hz
  others j _ := by rw [run, hr, run]
  entries := by rw [run, hr, run]

theorem Restates.zone (a : Restates i w v) (z : ZoneIx) : v.zone z = w.zone z := by
  rw [Works.zone, a.zones, Works.zone]

/-- The run after the change has the entries it had before. -/
theorem Restates.run (a : Restates i w v) (h : w.run i = some r) :
    ∃ r', v.run i = some r' ∧ r'.entries = r.entries := by
  have := a.entries
  rw [h] at this
  cases hv : v.run i with
  | none => rw [hv] at this; exact nomatch this
  | some r' => rw [hv] at this; exact ⟨r', rfl, Option.some.inj this⟩

theorem modRun_restates (w : Works) (i : SlotIx) (g : Run → Run) (h : ∀ r, (g r).entries = r.entries) :
    Restates i w (w.modRun i g) where
  others j hj := (run_modRun w i j g).trans (if_neg hj)
  entries := by
    rw [run_modRun_self, Option.map_map]
    exact congrArg (fun f => Option.map f (w.run i)) (funext h)

theorem startFlowDeadline_restates (w : Works) (i : SlotIx) : Restates i w (w.startFlowDeadline i) := by
  unfold startFlowDeadline
  split
  · exact modRun_restates w i _ fun _ => rfl
  · exact Restates.refl w

theorem nowFlowing_restates (w : Works) (i : SlotIx) : Restates i w (w.nowFlowing i) := by
  have h : Restates i w (if i = 0 then w.frostFlows else w) := Restates.ite {} (Restates.refl w)
  exact Restates.ite (h.trans (startFlowDeadline_restates _ i)) h

@[simp] theorem runs_runNotice (w : Works) (i : SlotIx) (o : Option RunState) :
    (w.runNotice i o).runs = w.runs := by
  unfold runNotice
  split
  · exact runs_notice _ _ _ _
  · rfl

@[simp] theorem zones_runNotice (w : Works) (i : SlotIx) (o : Option RunState) :
    (w.runNotice i o).zones = w.zones := by
  unfold runNotice
  split
  · exact zones_notice _ _ _ _
  · rfl

theorem setRunState_none (h : w.run i = none) (new : RunState) (x : Option RunCause) :
    w.setRunState i new x = w := by
  unfold setRunState
  rw [h]

theorem setRunState_same (h : w.run i = some r) (x : Option RunCause) : w.setRunState i r.state x = w := by
  unfold setRunState
  rw [h]
  exact if_pos rfl

theorem setRunState_new {new : RunState} (h : w.run i = some r) (hn : r.state ≠ new) (x : Option RunCause) :
    w.setRunState i new x =
      if new = .flowing then
        ((w.modRun i fun r => r.inState new x).runNotice i (some r.state)).nowFlowing i
      else (w.modRun i fun r => r.inState new x).runNotice i (some r.state) := by
  unfold setRunState
  rw [h]
  exact if_neg hn

theorem setRunState_restates (w : Works) (i : SlotIx) (new : RunState) (x : Option RunCause) :
    Restates i w (w.setRunState i new x) := by
  cases h : w.run i with
  | none => rw [setRunState_none h]; exact Restates.refl w
  | some r =>
    by_cases hn : r.state = new
    · subst hn
      rw [setRunState_same h]
      exact Restates.refl w
    · have hstate := (modRun_restates w i (fun r => r.inState new x) fun _ => rfl).trans
        (Restates.of_same (zones_runNotice _ i (some r.state)) (runs_runNotice _ i (some r.state)))
      rw [setRunState_new h hn]
      exact Restates.ite (hstate.trans (nowFlowing_restates _ i)) hstate

/-- A change of state to another than FLOWING sets the run to that state. -/
theorem run_setRunState {new : RunState} (h : w.run i = some r) (hn : r.state ≠ new) (hf : new ≠ .flowing)
    (x : Option RunCause) : (w.setRunState i new x).run i = some (r.inState new x) := by
  rw [setRunState_new h hn, if_neg hf, run, runs_runNotice]
  exact (run_modRun_self w i _).trans (by rw [h]; rfl)

theorem judgeFrost_calm (w : Works) : Calm q k w w.judgeFrost := by
  unfold judgeFrost
  split
  · exact Calm.refl w
  · exact setRunState_calm w 0 _ _

theorem judgeFrost_restates (w : Works) : Restates 0 w w.judgeFrost := by
  unfold judgeFrost
  split
  · exact Restates.refl w
  · exact setRunState_restates w 0 _ _

theorem offerAdmission_calm (w : Works) : Calm false k w w.offerAdmission := { owed := nofun }

theorem judgeIrrigation_calm (w : Works) (i : SlotIx) : Calm false k w (w.judgeIrrigation i) := by
  have hset := setRunState_calm (q := false) (k := k) w i
  unfold judgeIrrigation
  split
  · exact Calm.refl w
  · split
    · exact Calm.refl w
    · exact Calm.ite (Calm.refl w) (hset _ _)
    · exact Calm.ite (Calm.refl w) (hset _ _)
    · exact Calm.ite (Calm.refl w) (hset _ _)
    · exact Calm.ite (hset _ _) (Calm.ite (hset _ _) (Calm.ite (hset _ _) (Calm.refl w)))
    · exact Calm.ite (hset _ _) (Calm.ite (hset _ _) (Calm.ite (hset _ _) (Calm.refl w)))
    · exact Calm.ite (Calm.refl w)
        (Calm.ite ((hset _ _).trans (offerAdmission_calm _)) (hset _ _))
    · exact Calm.refl w
    · exact Calm.refl w
    · exact Calm.refl w

/-- Only a run that leaves SUSPENDING offers admission (R133). -/
theorem judgeIrrigation_owed (h : ∀ r, w.run i = some r → r.state ≠ .suspending) :
    (w.judgeIrrigation i).offer = w.offer ∧ (w.judgeIrrigation i).closes = w.closes := by
  have hset (new x) : Calm true true w (w.setRunState i new x) := setRunState_calm w i new x
  have hcalm : Calm true true w (w.judgeIrrigation i) := by
    unfold judgeIrrigation
    split
    · exact Calm.refl w
    · rename_i r hr
      split
      · exact Calm.refl w
      · exact Calm.ite (Calm.refl w) (hset _ _)
      · exact Calm.ite (Calm.refl w) (hset _ _)
      · exact Calm.ite (Calm.refl w) (hset _ _)
      · exact Calm.ite (hset _ _) (Calm.ite (hset _ _) (Calm.ite (hset _ _) (Calm.refl w)))
      · exact Calm.ite (hset _ _) (Calm.ite (hset _ _) (Calm.ite (hset _ _) (Calm.refl w)))
      · rename_i hs
        exact absurd hs (h r hr)
      · exact Calm.refl w
      · exact Calm.refl w
      · exact Calm.refl w
  exact hcalm.owed rfl

theorem judgeIrrigation_calm_of (h : ∀ r, w.run i = some r → r.state ≠ .suspending) :
    Calm q k w (w.judgeIrrigation i) :=
  { judgeIrrigation_calm w i with owed := fun _ => judgeIrrigation_owed h }

theorem judgeIrrigation_restates (w : Works) (i : SlotIx) : Restates i w (w.judgeIrrigation i) := by
  have hset := setRunState_restates w i
  unfold judgeIrrigation
  split
  · exact Restates.refl w
  · split
    · exact Restates.refl w
    · exact Restates.ite (Restates.refl w) (hset _ _)
    · exact Restates.ite (Restates.refl w) (hset _ _)
    · exact Restates.ite (Restates.refl w) (hset _ _)
    · exact Restates.ite (hset _ _) (Restates.ite (hset _ _) (Restates.ite (hset _ _) (Restates.refl w)))
    · exact Restates.ite (hset _ _) (Restates.ite (hset _ _) (Restates.ite (hset _ _) (Restates.refl w)))
    · exact Restates.ite (Restates.refl w)
        (Restates.ite ((hset _ _).trans (Restates.of_same rfl rfl)) (hset _ _))
    · exact Restates.refl w
    · exact Restates.refl w
    · exact Restates.refl w

theorem judgeRun_calm (w : Works) (i : SlotIx) : Calm false k w (w.judgeRun i) :=
  Calm.ite (judgeFrost_calm w) (judgeIrrigation_calm w i)

theorem judgeRun_calm_of (h : ∀ r, i ≠ 0 → w.run i = some r → r.state ≠ .suspending) :
    Calm q k w (w.judgeRun i) := by
  unfold judgeRun
  split
  · exact judgeFrost_calm w
  · rename_i hi
    exact judgeIrrigation_calm_of fun r hr => h r hi hr

theorem judgeRun_restates (w : Works) (i : SlotIx) : Restates i w (w.judgeRun i) := by
  unfold judgeRun
  split
  · rename_i h
    exact h ▸ judgeFrost_restates w
  · exact judgeIrrigation_restates w i

end Works

end Sys2Proof.Machine
end

section
/-! PROOF. The zones and runs that the operations change, and the obligations that follow at once: O36, O38,
O39 and O56. -/

namespace Sys2Proof.Machine

open Works State

variable {s u : State} {w v : Works} {port : Port} {t : Taken} {z y : ZoneIx} {i j : SlotIx} {r : Run}

/-! ### Entries of a run -/

namespace Run

/-- The entries of the zones listed are changed in turn; a change made once is not made again. -/
theorem foldl_modEntry (zs : List ZoneIx) (r : Run) (g : ZoneIx → RunEntry → RunEntry)
    (hzone : ∀ z x, (g z x).zone = x.zone) (htwice : ∀ z x, g z (g z x) = g z x) :
    zs.foldl (fun r z => r.modEntry z (g z)) r =
      { r with entries := r.entries.map fun x => if x.zone ∈ zs then g x.zone x else x } := by
  induction zs generalizing r with
  | nil => simp
  | cons z zs ih =>
    rw [List.foldl_cons, ih, modEntry]
    simp only [List.map_map]
    congr 1
    refine List.map_congr_left fun x _ => ?_
    by_cases hz : x.zone = z
    · subst hz
      by_cases hmem : x.zone ∈ zs
      · simp [hzone, hmem, htwice]
      · simp [hzone, hmem]
    · simp [hz]

theorem mem_zonesIn {r : Run} {z : ZoneIx} {e : EntryState} :
    z ∈ r.zonesIn e ↔ r.entries.any (fun x => x.zone == z && x.state == e) = true := by
  simp only [zonesIn, List.mem_map, List.mem_filter, List.any_eq_true, Bool.and_eq_true, beq_iff_eq]
  constructor
  · rintro ⟨x, ⟨hx, hs⟩, hz⟩
    exact ⟨x, hx, hz, hs⟩
  · rintro ⟨x, hx, hz, hs⟩
    exact ⟨x, ⟨hx, hs⟩, hz⟩

end Run

namespace Works

/-- The entries of the zones listed are changed in the run of one slot. -/
theorem run_foldl_putEntry (zs : List ZoneIx) (w : Works) (i : SlotIx) (g : ZoneIx → RunEntry → RunEntry) :
    (zs.foldl (fun w z => w.putEntry i z (g z)) w).run i =
      (w.run i).map fun r => zs.foldl (fun r z => r.modEntry z (g z)) r := by
  induction zs generalizing w with
  | nil => simp
  | cons z zs ih =>
    rw [List.foldl_cons, ih, run_putEntry_self, Option.map_map]
    rfl

theorem run_foldl_putEntry_ne (zs : List ZoneIx) (w : Works) (g : ZoneIx → RunEntry → RunEntry)
    (h : j ≠ i) : (zs.foldl (fun w z => w.putEntry i z (g z)) w).run j = w.run j := by
  induction zs generalizing w with
  | nil => rfl
  | cons z zs ih => exact (ih _).trans (run_putEntry_ne w z _ h)

theorem withdrawWaiting_eq (h : w.run i = some r) :
    w.withdrawWaiting i =
      (r.zonesIn .waiting).foldl (fun w z => w.putEntry i z fun e => e.become .withdrawn) w := by
  unfold withdrawWaiting eachEntry
  rw [h]

theorem withdrawWaiting_calm {q k : Bool} (w : Works) (i : SlotIx) : Calm q k w (w.withdrawWaiting i) := by
  unfold withdrawWaiting eachEntry
  split
  · exact Calm.foldl _ _ fun w z => putEntry_calm w i z _
  · exact Calm.refl w

/-- The WAITING entries become WITHDRAWN. -/
theorem run_withdrawWaiting (h : w.run i = some r) :
    (w.withdrawWaiting i).run i = some
      { r with entries := r.entries.map fun x =>
          if x.zone ∈ r.zonesIn .waiting then x.become .withdrawn else x } := by
  rw [withdrawWaiting_eq h, run_foldl_putEntry _ _ _ fun _ e => e.become .withdrawn, h]
  exact congrArg some
    (Run.foldl_modEntry _ r (fun _ e => e.become .withdrawn) (fun _ _ => rfl) fun _ _ => rfl)

theorem run_withdrawWaiting_ne (w : Works) (h : j ≠ i) : (w.withdrawWaiting i).run j = w.run j := by
  unfold withdrawWaiting eachEntry
  split
  · exact run_foldl_putEntry_ne _ w (fun _ e => e.become .withdrawn) h
  · rfl

/-! ### A new run -/

/-- The run a slot is given (R119). -/
def newRun (w : Works) (kind : RunKind) (origin : Origin) (state : RunState) (gather : Option Nat)
    (entries : List RunEntry) : Run :=
  { number := w.runNumber, serial := w.runSerial, kind := kind, origin := origin, state := state,
    created := w.time, gatherDeadline := gather, flowDeadline := none, closeCause := none,
    entries := entries }

/-- The new run in its slot, the run slot fields of its zones following. -/
def withRun (w : Works) (i : SlotIx) (r : Run) : Works :=
  (r.entries.map RunEntry.zone).foldl syncRunSlot
    { w.setRun i (some r) with
      runNumber := if w.runNumber = 0xFFFF#16 then 1 else w.runNumber + 1, runSerial := w.runSerial + 1 }

theorem runs_foldl_syncRunSlot (zs : List ZoneIx) (w : Works) : (zs.foldl syncRunSlot w).runs = w.runs := by
  induction zs generalizing w with
  | nil => rfl
  | cons z zs ih => exact (ih _).trans (runs_syncRunSlot w z)

theorem run_withRun_self (w : Works) (i : SlotIx) (r : Run) : (w.withRun i r).run i = some r := by
  rw [run, withRun, runs_foldl_syncRunSlot]
  exact run_setRun_self w i _

theorem run_withRun_ne (w : Works) (r : Run) (h : j ≠ i) : (w.withRun i r).run j = w.run j := by
  rw [run, withRun, runs_foldl_syncRunSlot]
  exact (run_setRun w i j _).trans (if_neg h)

theorem withRun_calm {q k : Bool} (w : Works) (i : SlotIx) (r : Run) : Calm q k w (w.withRun i r) :=
  Calm.trans (v := { w.setRun i (some r) with
    runNumber := if w.runNumber = 0xFFFF#16 then 1 else w.runNumber + 1, runSerial := w.runSerial + 1 }) {}
    (Calm.foldl _ _ syncRunSlot_calm)

theorem createRun_eq (w : Works) (i : SlotIx) (kind : RunKind) (origin : Origin) (state : RunState)
    (gather : Option Nat) (entries : List RunEntry) :
    w.createRun i kind origin state gather entries =
      if state = .flowing then
        ((w.withRun i (w.newRun kind origin state gather entries)).runNotice i none).nowFlowing i
      else (w.withRun i (w.newRun kind origin state gather entries)).runNotice i none := rfl

section

variable (w : Works) (i : SlotIx) (kind : RunKind) (origin : Origin) (state : RunState)
  (gather : Option Nat) (entries : List RunEntry)

theorem createRun_restates :
    Restates i (w.withRun i (w.newRun kind origin state gather entries))
      (w.createRun i kind origin state gather entries) := by
  have hnotice (u : Works) : Restates i u (u.runNotice i none) :=
    Restates.of_same (zones_runNotice u i none) (runs_runNotice u i none)
  rw [createRun_eq]
  exact Restates.ite ((hnotice _).trans (nowFlowing_restates _ i)) (hnotice _)

theorem createRun_calm {q k : Bool} : Calm q k w (w.createRun i kind origin state gather entries) := by
  have hnotice := (withRun_calm (q := q) (k := k) w i (w.newRun kind origin state gather entries)).trans
    (runNotice_calm _ i none)
  rw [createRun_eq]
  exact Calm.ite (hnotice.trans (nowFlowing_calm _ i)) hnotice

variable {w i kind origin state gather entries}

theorem run_createRun (h : state ≠ .flowing) :
    (w.createRun i kind origin state gather entries).run i =
      some (w.newRun kind origin state gather entries) := by
  rw [createRun_eq, if_neg h, run, runs_runNotice]
  exact run_withRun_self w i _

theorem run_createRun_ne (h : j ≠ i) :
    (w.createRun i kind origin state gather entries).run j = w.run j :=
  ((createRun_restates w i kind origin state gather entries).others j h).trans (run_withRun_ne w _ h)

end

/-! ### A change of frost state -/

theorem zone_setFrost_ne (w : Works) (new : FrostState) (thaw : Option Nat) (cause : FrostCause)
    (h : y ≠ z) : (w.setFrost z new thaw cause).zone y = w.zone y := by
  unfold setFrost
  split
  · rfl
  · have hzones (v : Works) (subject : Byte) (detail : Bytes) :
        (v.driveAlert.notice .frostState subject detail).zone y = v.zone y := by simp [zone]
    rw [hzones, zone_touch_ne _ h, zone_modZone, if_neg h]

theorem zone_touch_self (w : Works) (z : ZoneIx) : ∃ g, (w.touch z).zone z = { w.zone z with gen := g } := by
  unfold touch
  split
  · exact ⟨_, rfl⟩
  · exact ⟨_, zone_modZone_self w z _⟩

/-- The zone in its new frost state: its confirm counter is 0 (R104). -/
theorem zone_setFrost_self {new : FrostState} (h : (w.zone z).frost ≠ new) (thaw : Option Nat)
    (cause : FrostCause) :
    ∃ g, (w.setFrost z new thaw cause).zone z =
      { w.zone z with frost := new, confirm := 0, thaw := thaw, gen := g } := by
  have hzones (v : Works) (subject : Byte) (detail : Bytes) :
      (v.driveAlert.notice .frostState subject detail).zone z = v.zone z := by simp [zone]
  unfold setFrost
  rw [if_neg h]
  dsimp only
  rw [hzones]
  obtain ⟨g, hg⟩ := zone_touch_self
    (w.modZone z fun x => { x with frost := new, confirm := 0, thaw := thaw }) z
  exact ⟨g, hg.trans (by rw [zone_modZone_self])⟩

theorem setFrost_same {new : FrostState} (h : (w.zone z).frost = new) (thaw : Option Nat)
    (cause : FrostCause) : w.setFrost z new thaw cause = w := if_pos h

theorem sendAlert_calm {q k : Bool} (w : Works) : Calm q k w w.sendAlert :=
  (submitUrgent_calm w _ _ _).trans {}

theorem driveAlert_calm {q k : Bool} (w : Works) : Calm q k w w.driveAlert :=
  Calm.ite (Calm.ite (Calm.refl w) (Calm.trans (v := { w with alert := true }) {} (sendAlert_calm _))) {}

theorem setFrost_calm {q k : Bool} (w : Works) (z : ZoneIx) (new : FrostState) (thaw : Option Nat)
    (cause : FrostCause) : Calm q k w (w.setFrost z new thaw cause) :=
  Calm.ite (Calm.refl w)
    ((((modZone_calm w z (fun x => { x with frost := new, confirm := 0, thaw := thaw }) (fun _ => rfl)
      fun _ => rfl).trans (touch_calm _ z)).trans (driveAlert_calm _)).trans (notice_calm _ _ _ _))

end Works

/-! ### Evaluations in CLEAR and WATCH -/

namespace Works

theorem evaluate_of_quiet (h : (w.zone z).frost = .clear ∨ (w.zone z).frost = .watch) (wet : Int)
    (counting : Bool) (cause : FrostCause) :
    w.evaluate z wet counting cause = w.evaluateQuiet z wet counting cause := by
  unfold evaluate
  rcases h with h | h <;> rw [h]

/-- Below warn wet a counting evaluation counts, or confirms frost when its count is reached (R105). -/
theorem evaluateQuiet_counts {wet : Int} (h : wet < (w.cfg z).warnWet) (cause : FrostCause) :
    w.evaluateQuiet z wet true cause =
      if (w.cfg z).confirmCount ≤ (w.zone z).confirm + 1 then w.frostConfirmed z cause
      else w.modZone z fun y => { y with confirm := (w.zone z).confirm + 1 } := by
  unfold evaluateQuiet
  exact (if_pos h).trans (if_pos rfl)

theorem canProtect_false
    (h : (w.zone z).protect = false ∨ (w.cfg z).valveNode = none ∨ (w.zone z).valve = .stuck) :
    w.canProtect z = false := by
  unfold canProtect
  rcases h with h | h | h <;> simp [h]

/-- A zone that cannot be protected is UNPROTECTED once frost is confirmed (R106). -/
theorem frostConfirmed_unprotected (h : w.canProtect z = false) (cause : FrostCause) :
    w.frostConfirmed z cause =
      (w.modZone z fun x => { x with confirm := 0 }).setFrost z .unprotected none cause := by
  have hcan : (w.modZone z fun x => { x with confirm := 0 }).canProtect z = w.canProtect z := by
    unfold canProtect
    rw [zone_modZone_self]
    rfl
  exact if_neg (by rw [hcan, h]; exact Bool.false_ne_true)

theorem confirm_setFrost_of_zero {new : FrostState} (h : (w.zone z).confirm = 0) (thaw : Option Nat)
    (cause : FrostCause) : ((w.setFrost z new thaw cause).zone z).confirm = 0 := by
  by_cases hn : (w.zone z).frost = new
  · rw [setFrost_same hn, h]
  · obtain ⟨g, hg⟩ := zone_setFrost_self hn thaw cause
    rw [hg]

end Works

/-- Settles O38. -/
theorem confirmCounterAdvances : Obligations.ConfirmCounterAdvances := by
  intro w z wet cause hquiet hwet
  refine ⟨?_, fun hcount => ?_, fun hcount hcannot => ?_⟩
  · rw [evaluate_of_quiet hquiet]
    exact (if_pos hwet).trans (if_neg Bool.false_ne_true)
  · rw [evaluate_of_quiet hquiet, evaluateQuiet_counts hwet, if_neg (Nat.not_le_of_lt hcount)]
  · rw [evaluate_of_quiet hquiet, evaluateQuiet_counts hwet, if_pos hcount,
      frostConfirmed_unprotected (canProtect_false hcannot)]
    refine ⟨frost_setFrost_self _ _ _ _ _, confirm_setFrost_of_zero ?_ _ _⟩
    rw [zone_modZone_self]

/-! ### The gather deadline -/

namespace Works

theorem gatherDeadline_due {d : Nat} (hr : w.run i = some r) (hs : r.state = .gathering)
    (hd : r.gatherDeadline = some d) (hle : d ≤ w.time) : w.gatherDeadline i = w.gatherExpired i r := by
  unfold gatherDeadline
  rw [hr]
  dsimp only
  rw [hs, hd]
  exact if_pos (reached_of_le hle)

theorem gatherExpired_waiting (h : r.has .waiting = true) :
    w.gatherExpired i r = w.rdpEvent fun v => (v.setRunState i .queued none).offerAdmission :=
  congrArg w.rdpEvent (funext fun _ => if_pos h)

/-- With no entry waiting, and nothing else in hand, the run ends. -/
theorem gatherExpired_ended (h : r.has .waiting = false) (hidle : w.Idle) :
    w.gatherExpired i r = (w.setRunState i r.ending none).tellLine := by
  have hwork : (fun v : Works => if r.has .waiting = true then (v.setRunState i .queued none).offerAdmission
      else v.setRunState i r.ending none) = fun v => v.setRunState i r.ending none :=
    funext fun _ => if_neg (by rw [h]; exact Bool.false_ne_true)
  exact (congrArg w.rdpEvent hwork).trans
    (rdpEvent_of_idle ((setRunState_calm (k := true) w i r.ending none).idle hidle))

theorem run_tellLine (w : Works) (i : SlotIx) : w.tellLine.run i = w.run i := by
  rw [run, (tellLine_onlyLine w).runs, run]

theorem zone_tellLine (w : Works) (z : ZoneIx) : w.tellLine.zone z = w.zone z := by
  rw [zone, (tellLine_onlyLine w).zones, zone]

theorem gatherDeadline_early {d : Nat} (hr : w.run i = some r) (hs : r.state = .gathering)
    (hd : r.gatherDeadline = some d) (hlt : w.time < d) : w.gatherDeadline i = w := by
  unfold gatherDeadline
  rw [hr]
  dsimp only
  rw [hs, hd]
  exact if_neg (by rw [not_reached_of_lt hlt]; exact Bool.false_ne_true)

end Works

theorem irrigationSlot?_val (h : i ≠ 0) : irrigationSlot? i.val = some i := by
  have hi : i.val ≠ 0 := fun h0 => h (Fin.ext h0)
  exact (if_neg hi).trans (slotIx?_val i)

/-- The end of a GATHERING run (R131). -/
theorem ending_gathering (h : r.state = .gathering) :
    r.ending = if r.has .done then .done else if r.has .faulted then .faulted else .cancelled := by
  unfold Run.ending
  rw [h]

/-- Settles O39. -/
theorem gatherDeadlineEndsGathering : Obligations.GatherDeadlineEndsGathering := by
  intro s i r d hi hr hs hd
  have heffect : exec (.gatherDeadline i.val) s = .next (s.onWorks fun w => w.gatherDeadline i).finish := by
    rw [exec_eq_effect]
    exact congrArg (fun o => Host.Outcome.next (s.onRow o Works.gatherDeadline).finish)
      (irrigationSlot?_val hi)
  refine ⟨fun hle hwait => ⟨?_, ?_⟩, fun hle hwait hidle => ?_, fun hlt => ?_⟩
  · rw [heffect, onWorks, gatherDeadline_due hr hs hd hle, gatherExpired_waiting hwait]
    rfl
  · rw [run_setRunState hr (by rw [hs]; decide) (by decide)]
    rfl
  · have hending := ending_gathering hs
    have hne : r.state ≠ r.ending ∧ r.ending ≠ .flowing := by
      rw [hs, hending]
      split
      · decide
      · split <;> decide
    have hnot : r.ending ≠ .gathering := fun h => hne.1 (hs.trans h.symm)
    refine ⟨_, heffect, ?_, fun j hj => ?_⟩
    · show (s.works.gatherDeadline i).run i = _
      rw [gatherDeadline_due hr hs hd hle, gatherExpired_ended hwait hidle.1, run_tellLine,
        run_setRunState hr hne.1 hne.2, Run.inState, if_neg hnot, if_neg hne.2, hending]
    · show (s.works.gatherDeadline i).run j = _
      rw [gatherDeadline_due hr hs hd hle, gatherExpired_ended hwait hidle.1, run_tellLine]
      exact (setRunState_restates s.works i r.ending none).others j hj
  · rw [heffect, onWorks, gatherDeadline_early hr hs hd hlt]

/-! ### RUN.OPEN and RUN.CANCEL -/

namespace State

theorem runOpenBody_halted (h : s.works.running = false) (items : List (Nat × Nat)) :
    runOpenBody items s = (s, .refused .state) := if_pos (by rw [h]; rfl)

/-- Zones that pass every check, with a slot for their run (R128). -/
theorem runOpenBody_opens {items : List (Nat × Nat)} {zs checked : List (ZoneIx × Nat)} {slot : SlotIx}
    (h : s.works.running = true) (hzs : runZones? items = some zs)
    (hchecked : checkRunZones s.works zs = .ok checked)
    (hcap : s.works.demandSum (checked.map Prod.fst) ≤ s.works.site.capacity)
    (hslot : s.works.newSlot? = some slot) :
    runOpenBody items s =
      (s.onWorks fun w => w.openRun slot checked, .done [[byte slot.val], be16 s.works.runNumber.toNat]) := by
  unfold runOpenBody
  refine (if_neg (by rw [h]; exact Bool.false_ne_true)).trans ?_
  rw [hzs]
  dsimp only
  rw [hchecked]
  refine (if_neg (Nat.not_lt.mpr hcap)).trans ?_
  rw [hslot]

theorem runCancelBody_halted (h : s.works.running = false) (a : Nat × Word16) :
    runCancelBody a s = (s, .refused .state) := if_pos (by rw [h]; rfl)

/-- RUN.CANCEL in RUNNING goes by the live run that the slot and the number name. -/
theorem runCancelBody_running (h : s.works.running = true) (i : SlotIx) (n : Word16) :
    runCancelBody ((byte i.val).toNat, n) s =
      match namedRun? s.works i n with
      | none => (s, .refused .unknown)
      | some r =>
        if i = 0 then (s.onWorks cancelFrost, .done [[frostRunState (s.onWorks cancelFrost).works]])
        else (s.onWorks fun w => w.cancelIrrigation i r, .done []) := by
  unfold runCancelBody
  refine (if_neg (by rw [h]; exact Bool.false_ne_true)).trans ?_
  rw [toNat_byte_slot, slotIx?_val] <;> rfl

theorem namedRun?_none (h : w.run i = none) (n : Word16) : namedRun? w i n = none := by
  unfold namedRun?
  rw [h]

theorem namedRun?_some (h : w.run i = some r) (hlive : r.live = true) :
    namedRun? w i r.number = some r := by
  unfold namedRun?
  rw [h]
  exact if_pos ⟨hlive, rfl⟩

end State

namespace Works

/-- The cancel of a QUEUED run withdraws its waiting entries and ends it (R137). -/
theorem cancelIrrigation_queued (hs : r.state = .queued) (hidle : w.Idle) :
    w.cancelIrrigation i r = ((w.withdrawWaiting i).setRunState i .cancelled none).tellLine := by
  have hcalm := (withdrawWaiting_calm (q := true) (k := true) w i).trans
    (setRunState_calm _ i .cancelled none)
  unfold cancelIrrigation
  rw [hs]
  exact rdpEvent_of_idle (hcalm.idle hidle)

end Works

/-- Settles O56. -/
theorem runOpenAndCancel : Obligations.RunOpenAndCancel := by
  intro s port t
  have hworks := works_dropRequest s port
  refine ⟨fun items args hitems h => ⟨fun hhalt => ?_, fun zs checked slot hrun hzs hchecked hcap hslot =>
    ⟨?_, ?_⟩⟩, fun i n1 n0 may h hmay => ?_⟩
  · refine h.outcome .runOpen runOpenService items rfl ?_ rfl
      (runOpenBody_halted (by rw [hworks]; exact not_running_of_device hhalt) _)
    show ((runItems? args).map Req.runOpen).bind runOpenService.pick = _
    rw [hitems]
    rfl
  · refine h.outcome .runOpen runOpenService items rfl ?_ rfl ?_
    · show ((runItems? args).map Req.runOpen).bind runOpenService.pick = _
      rw [hitems]
      rfl
    · refine (runOpenBody_opens (by rw [hworks]; exact running_of_device hrun) hzs (hworks.symm ▸ hchecked)
        (hworks.symm ▸ hcap) (hworks.symm ▸ hslot)).trans ?_
      rw [hworks]
      rfl
  · exact run_createRun (by decide)
  · have h' : s.Asks port t 0x10 [byte i.val, n1, n0] ((byte i.val).toNat != 0) := by
      refine ⟨h.next, h.code, h.args, h.authority.imp_right fun hrole => ⟨hrole.1, ?_⟩⟩
      rw [toNat_byte_slot]
      exact bne_iff_ne.mpr fun h0 => hmay hrole.2 (Fin.ext h0)
    refine ⟨fun hhalt => ?_, fun hrun hnone => ?_, fun r hrun hi hr hn hs hidle => ?_⟩
    · exact h'.outcome .runCancel runCancelService _ rfl rfl rfl
        (runCancelBody_halted (by rw [hworks]; exact not_running_of_device hhalt) _)
    · refine h'.outcome .runCancel runCancelService _ rfl rfl rfl ?_
      refine (runCancelBody_running (by rw [hworks]; exact running_of_device hrun) i _).trans ?_
      rw [hworks, namedRun?_none hnone]
    · have hlive : r.live = true := by rw [Run.live, hs]; rfl
      have hwithdrawn := run_withdrawWaiting hr
      have hended := cancelIrrigation_queued (i := i) hs hidle.1
      have hcancelled := run_setRunState hwithdrawn (new := .cancelled) (by rw [hs]; decide) (by decide) none
      refine ⟨s.works.cancelIrrigation i r, _, h'.outcome .runCancel runCancelService _ rfl rfl rfl ?_,
        (congrArg (Works.run · i) hended).trans ((run_tellLine _ i).trans hcancelled), rfl, rfl,
        fun j hj => ?_, fun z => ?_⟩
      · refine (runCancelBody_running (by rw [hworks]; exact running_of_device hrun) i _).trans ?_
        rw [hworks, ← hn, namedRun?_some hr hlive]
        refine (if_neg hi).trans ?_
        rw [onWorks, hworks]
        rfl
      · rw [hended, run_tellLine, (setRunState_restates _ i .cancelled none).others j hj,
          run_withdrawWaiting_ne _ hj]
      · rw [hended, zone_tellLine, (setRunState_restates _ i .cancelled none).zone z]
        exact (withdrawWaiting_calm (q := true) (k := true) s.works i).valve rfl z

end Sys2Proof.Machine
end

section
/-! PROOF. The ALERT pin and its timer (O36), and the end of a pulse and of its gap (O46). -/

namespace Sys2Proof.Machine

open Works State

variable {s : State} {w v : Works} {z : ZoneIx} {i : SlotIx} {r : Run} {p : Pulse}

/-! ### The ALERT pin -/

namespace Works

theorem alerting_iff (x : FrostState) : x.alerting = true ↔ x ≠ .clear ∧ x ≠ .watch := by
  cases x <;> decide

theorem anyAlerting_iff (w : Works) :
    w.anyAlerting = true ↔ ∃ y, (w.zone y).frost ≠ .clear ∧ (w.zone y).frost ≠ .watch := by
  simp only [anyAlerting, List.any_eq_true, mem_allZones, true_and, alerting_iff]

theorem alertPayload_congr (h : v.zones = w.zones) : v.alertPayload = w.alertPayload := by
  unfold alertPayload zone
  rw [h]

/-- What FRW keeps of the ALERT pin. -/
structure SamePin (w v : Works) : Prop where
  alert : v.alert = w.alert := by exact rfl
  timer : v.alertTimer = w.alertTimer := by exact rfl
  urgent : v.urgent = w.urgent := by exact rfl
  txSeq : v.txSeq = w.txSeq := by exact rfl

theorem notice_samePin (w : Works) (n : NoticeKind) (subject : Byte) (detail : Bytes) :
    SamePin w (w.notice n subject detail) := by
  unfold notice
  split
  · split
    · exact {}
    · exact {}
  · exact {}

theorem touch_samePin (w : Works) (z : ZoneIx) : SamePin w (w.touch z) := by
  unfold touch
  split
  · exact {}
  · exact {}

theorem composed_congr (htables : v.tables = w.tables) (hseq : v.txSeq = w.txSeq) (kind : Byte)
    (dst : NodeId) (payload : Bytes) : v.composed kind dst payload = w.composed kind dst payload := by
  simp only [composed, site, htables, hseq]

/-- ALERT goes out when URGENT has room (R117). -/
theorem sendAlert_urgent (w : Works) :
    w.sendAlert.urgent =
      if w.urgent.length < 8 then w.urgent ++ [w.composed 0x09 0xFFFFFF#24 w.alertPayload] else w.urgent := by
  unfold sendAlert submitUrgent
  split
  · exact (if_pos ‹_›).symm
  · exact (if_neg ‹_›).symm

theorem driveAlert_quiet (h : w.anyAlerting = false) :
    w.driveAlert = { w with alert := false, alertTimer := none } :=
  if_neg (by rw [h]; exact Bool.false_ne_true)

theorem driveAlert_on (h : w.anyAlerting = true) (ha : w.alert = true) : w.driveAlert = w :=
  (if_pos h).trans (if_pos ha)

theorem driveAlert_rise (h : w.anyAlerting = true) (ha : w.alert = false) :
    w.driveAlert = { w with alert := true }.sendAlert :=
  (if_pos h).trans (if_neg (by rw [ha]; exact Bool.false_ne_true))

/-- The pin after it is driven, and what its rise sends. -/
theorem driveAlert_pin (w : Works) :
    w.driveAlert.alert = w.anyAlerting
      ∧ (w.anyAlerting = false → w.driveAlert.alertTimer = none ∧ w.driveAlert.urgent = w.urgent)
      ∧ (w.anyAlerting = true → w.alert = true →
          w.driveAlert.alertTimer = w.alertTimer ∧ w.driveAlert.urgent = w.urgent)
      ∧ (w.anyAlerting = true → w.alert = false →
          w.driveAlert.alertTimer = some (after w.time w.site.alertInterval)
            ∧ w.driveAlert.urgent = if w.urgent.length < 8 then
                w.urgent ++ [w.composed 0x09 0xFFFFFF#24 w.alertPayload] else w.urgent) := by
  refine ⟨?_, fun h => ?_, fun h ha => ?_, fun h ha => ?_⟩
  · cases h : w.anyAlerting with
    | false => rw [driveAlert_quiet h]
    | true =>
      cases ha : w.alert with
      | false =>
        rw [driveAlert_rise h ha]
        unfold sendAlert submitUrgent
        split <;> rfl
      | true => rw [driveAlert_on h ha, ha]
  · rw [driveAlert_quiet h]
    exact ⟨rfl, rfl⟩
  · rw [driveAlert_on h ha]
    exact ⟨rfl, rfl⟩
  · rw [driveAlert_rise h ha]
    exact ⟨rfl, sendAlert_urgent _⟩

theorem alertExpiry_due {d : Nat} (ha : w.alert = true) (ht : w.alertTimer = some d) (h : d ≤ w.time) :
    w.alertExpiry = w.sendAlert := by
  unfold alertExpiry
  rw [ht]
  exact if_pos (by rw [ha, reached_of_le h]; rfl)

theorem alertExpiry_early {d : Nat} (ht : w.alertTimer = some d) (h : w.time < d) : w.alertExpiry = w := by
  unfold alertExpiry
  rw [ht]
  exact if_neg (by rw [not_reached_of_lt h, Bool.and_false]; exact Bool.false_ne_true)

end Works

/-- Settles O36. -/
theorem alertTimerSendsAlert : Obligations.AlertTimerSendsAlert := by
  refine ⟨fun w z new thaw cause v hne hv => ?_, fun w => ?_, fun s d ha ht =>
    ⟨fun hle hroom => ?_, fun hle hfull => ?_, fun hlt => ?_⟩⟩
  · obtain ⟨u, hu⟩ : ∃ u : Works,
        u = (w.modZone z fun x => { x with frost := new, confirm := 0, thaw := thaw }).touch z := ⟨_, rfl⟩
    have hset : v = u.driveAlert.notice .frostState (byte z.val)
        (u.driveAlert.frostDetail z (w.zone z).frost cause) := by
      rw [hv, hu]
      exact if_neg hne
    have hpin : SamePin w u := by
      have := touch_samePin (w.modZone z fun x => { x with frost := new, confirm := 0, thaw := thaw }) z
      rw [hu]
      exact ⟨this.alert, this.timer, this.urgent, this.txSeq⟩
    have hcalm : Calm true true w u := by
      rw [hu]
      exact (modZone_calm w z _ (fun _ => by rfl) fun _ => by rfl).trans (touch_calm _ z)
    have hnotice : SamePin u.driveAlert v := hset ▸ notice_samePin _ _ _ _
    have hzones : v.zones = u.zones := by rw [hset, zones_notice, zones_driveAlert]
    have hany : v.anyAlerting = u.anyAlerting := by unfold anyAlerting zone; rw [hzones]
    obtain ⟨halert, hquiet, hon, hrise⟩ := driveAlert_pin u
    have hv_alert : v.alert = u.anyAlerting := hnotice.alert.trans halert
    refine ⟨?_, ?_, fun y hy => ?_, fun h => ?_, fun h hw => ?_, fun h hw => ?_⟩
    · rw [hv_alert, ← hany, anyAlerting_iff]
    · rw [hv]
      exact frost_setFrost_self w z new thaw cause
    · rw [hv]
      exact zone_setFrost_ne w new thaw cause hy
    · obtain ⟨htimer, hurgent⟩ := hquiet (hv_alert.symm.trans h)
      exact ⟨hnotice.timer.trans htimer, hnotice.urgent.trans (hurgent.trans hpin.urgent)⟩
    · obtain ⟨htimer, hurgent⟩ := hon (hv_alert.symm.trans h) (hpin.alert.trans hw)
      exact ⟨hnotice.timer.trans (htimer.trans hpin.timer), hnotice.urgent.trans (hurgent.trans hpin.urgent)⟩
    · obtain ⟨htimer, hurgent⟩ := hrise (hv_alert.symm.trans h) (hpin.alert.trans hw)
      refine ⟨hnotice.timer.trans (htimer.trans (by rw [hcalm.time, hcalm.site])), ?_⟩
      rw [hnotice.urgent, hurgent, hpin.urgent, composed_congr hcalm.tables hpin.txSeq,
        ← alertPayload_congr hzones]
  · refine List.filterMap_congr fun z _ => ?_
    cases (w.zone z).frost <;> simp [FrostState.alertCode, byte]
  · rw [exec_eq_effect]
    have hsend : s.works.alertExpiry = { s.works with
        urgent := s.works.urgent ++ [s.works.composed 0x09 0xFFFFFF#24 s.works.alertPayload],
        txSeq := s.works.txSeq + 1, alertTimer := some (after s.works.time s.works.site.alertInterval) } := by
      rw [alertExpiry_due ha ht hle, sendAlert, submitUrgent_of_room hroom]
      rfl
    exact congrArg (fun x => Host.Outcome.next (State.finish { s with works := x })) hsend
  · rw [exec_eq_effect]
    have hsend : s.works.alertExpiry =
        { s.works with alertTimer := some (after s.works.time s.works.site.alertInterval) } := by
      rw [alertExpiry_due ha ht hle, sendAlert, submitUrgent_full (Nat.not_lt.mpr hfull)]
    exact congrArg (fun x => Host.Outcome.next (State.finish { s with works := x })) hsend
  · rw [exec_eq_effect]
    exact congrArg (fun x => Host.Outcome.next (State.finish { s with works := x }))
      (alertExpiry_early ht hlt)

/-! ### The end of a pulse -/

theorem foldl_same {α : Type} (f : Works → α) (g : Works → ZoneIx → Works) (h : ∀ w z, f (g w z) = f w)
    (zs : List ZoneIx) (w : Works) : f (zs.foldl g w) = f w := by
  induction zs generalizing w with
  | nil => rfl
  | cons z zs ih => exact (ih _).trans (h w z)

namespace Works

@[simp] theorem line_setCmd (w : Works) (z : ZoneIx) (c : Option Cmd) : (w.setCmd z c).line = w.line := rfl

@[simp] theorem line_submitCommand (w : Works) (n : Byte) (dst : NodeId) (x : Bytes) :
    (w.submitCommand n dst x).line = w.line := by
  unfold submitCommand
  split <;> rfl

@[simp] theorem line_submitUrgent (w : Works) (n : Byte) (dst : NodeId) (x : Bytes) :
    (w.submitUrgent n dst x).line = w.line := by
  unfold submitUrgent
  split <;> rfl

@[simp] theorem line_attempt (w : Works) (z : ZoneIx) : (w.attempt z).line = w.line := by
  unfold attempt
  split
  · rfl
  · dsimp only
    split
    · exact line_submitCommand _ _ _ _
    · exact line_submitUrgent _ _ _ _
    · rfl

/-- VCU's turn at a zone's unsent OPEN (R151). -/
def sendTurn (w : Works) (z : ZoneIx) : Works :=
  match (w.zone z).cmd with
  | some c => if c.kind = .openValve ∧ c.attempts = 0 then w.attempt z else w
  | none => w

theorem sendHeld_eq (w : Works) : w.sendHeld = allZones.foldl sendTurn w := rfl

/-- A turn is an attempt or nothing. -/
theorem sendTurn_cases (w : Works) (z : ZoneIx) : w.sendTurn z = w.attempt z ∨ w.sendTurn z = w := by
  unfold sendTurn
  split
  · split
    · exact Or.inl rfl
    · exact Or.inr rfl
  · exact Or.inr rfl

theorem line_sendHeld (w : Works) : w.sendHeld.line = w.line := by
  refine foldl_same Works.line sendTurn (fun w z => ?_) _ w
  rcases sendTurn_cases w z with h | h <;> rw [h]
  exact line_attempt w z

theorem runs_sendHeld (w : Works) : w.sendHeld.runs = w.runs := by
  refine foldl_same Works.runs sendTurn (fun w z => ?_) _ w
  rcases sendTurn_cases w z with h | h <;> rw [h]
  exact runs_attempt w z

theorem valve_sendHeld (w : Works) (z : ZoneIx) : (w.sendHeld.zone z).valve = (w.zone z).valve := by
  refine foldl_same (fun w => (w.zone z).valve) sendTurn (fun w y => ?_) _ w
  rcases sendTurn_cases w y with h | h <;> rw [h]
  exact zone_attempt_valve w y z

/-- VCU's turn at a run as the pump starts (R163). -/
def flowTurn (w : Works) (i : SlotIx) : Works :=
  match w.run i with
  | some r => if r.state = .flowing then w.startFlowDeadline i else w
  | none => w

theorem pumpStarted_eq (w : Works) : w.pumpStarted = allSlots.foldl flowTurn w := rfl

/-- A turn times the run, or does nothing. -/
theorem flowTurn_cases (w : Works) (i : SlotIx) :
    w.flowTurn i = w ∨ ∃ g : Run → Run, w.flowTurn i = w.modRun i g := by
  unfold flowTurn startFlowDeadline
  split
  · split
    · split
      · exact Or.inr ⟨_, rfl⟩
      · exact Or.inl rfl
    · exact Or.inl rfl
  · exact Or.inl rfl

/-- Only the runs change in the turns. -/
theorem foldl_flowTurn_only (is : List SlotIx) (w : Works) :
    is.foldl flowTurn w = { w with runs := (is.foldl flowTurn w).runs } := by
  induction is generalizing w with
  | nil => rfl
  | cons i is ih =>
    rw [List.foldl_cons]
    rcases flowTurn_cases w i with h | ⟨g, h⟩ <;> rw [h]
    · exact ih w
    · rw [ih (w.modRun i g)]
      rfl

theorem run_flowTurn_ne (w : Works) {j : SlotIx} (h : j ≠ i) : (w.flowTurn i).run j = w.run j := by
  rcases flowTurn_cases w i with hc | ⟨g, hc⟩ <;> rw [hc]
  exact (run_modRun w i j g).trans (if_neg h)

theorem run_flowTurn_self (h : w.run i = some r) (hs : r.state = .flowing) (hm : w.site.meter ≠ none) :
    (w.flowTurn i).run i = some { r with flowDeadline := some (after w.time w.site.flowLimit) } := by
  obtain ⟨m, hm⟩ := Option.ne_none_iff_exists'.mp hm
  unfold flowTurn startFlowDeadline
  rw [h]
  dsimp only
  rw [if_pos hs, hm, run_modRun_self, h]
  rfl

theorem run_foldl_flowTurn_of_not_mem {is : List SlotIx} (h : i ∉ is) (w : Works) :
    (is.foldl flowTurn w).run i = w.run i := by
  induction is generalizing w with
  | nil => rfl
  | cons j is ih =>
    obtain ⟨hj, his⟩ := not_or.mp (mt List.mem_cons.mpr h)
    exact (ih his _).trans (run_flowTurn_ne w hj)

theorem run_foldl_flowTurn {is : List SlotIx} (hnodup : is.Nodup) (hmem : i ∈ is) (h : w.run i = some r)
    (hs : r.state = .flowing) (hm : w.site.meter ≠ none) :
    (is.foldl flowTurn w).run i = some { r with flowDeadline := some (after w.time w.site.flowLimit) } := by
  induction is generalizing w with
  | nil => exact absurd hmem List.not_mem_nil
  | cons j is ih =>
    obtain ⟨hj, his⟩ := List.nodup_cons.mp hnodup
    rw [List.foldl_cons]
    by_cases hij : i = j
    · subst hij
      rw [run_foldl_flowTurn_of_not_mem hj, run_flowTurn_self h hs hm]
    · have hsame : (w.flowTurn j).site = w.site ∧ (w.flowTurn j).time = w.time := by
        rcases flowTurn_cases w j with hc | ⟨g, hc⟩ <;> rw [hc]
        · exact ⟨rfl, rfl⟩
        · exact ⟨rfl, rfl⟩
      have := ih his ((List.mem_cons.mp hmem).resolve_left hij) ((run_flowTurn_ne w hij).trans h)
        (hsame.1 ▸ hm)
      rw [this, hsame.1, hsame.2]

/-- A run that flows as the pump starts is timed from then (R163). -/
theorem run_pumpStarted (h : w.run i = some r) (hs : r.state = .flowing) (hm : w.site.meter ≠ none) :
    w.pumpStarted.run i = some { r with flowDeadline := some (after w.time w.site.flowLimit) } := by
  have hnodup : allSlots.Nodup := List.nodup_finRange 12
  have hmem : i ∈ allSlots := List.mem_finRange i
  rw [pumpStarted_eq]
  exact run_foldl_flowTurn hnodup hmem h hs hm

/-! The pulse in its gap. -/

theorem tailEnd_passed (hp : w.line.pulse = some p) (ht : p.phase = .tail) (h : p.passed = true) :
    w.tailEnd = w.setPhase p .gap := by
  unfold tailEnd
  rw [hp]
  exact (if_pos ht).trans (if_pos h)

/-- The end of a pulse that no reset has passed over moves the line (R165, R166). -/
theorem tailEnd_moves {o : Output} {on : Bool} (hp : w.line.pulse = some p) (ht : p.phase = .tail)
    (h : p.passed = false) (ho : p.output = o) (hon : p.on = on) :
    w.tailEnd = (w.setPhase p .gap).lineAfterPulse o on := by
  unfold tailEnd
  rw [hp, ← ho, ← hon]
  exact (if_pos ht).trans (if_neg (by rw [h]; exact Bool.false_ne_true))

theorem stopIfIdle_demand (h : w.line.demand = true) : w.stopIfIdle = w := if_pos h

theorem stopComplete_idle (hd : w.line.demand = false) (hf : w.line.frostFlowed = false) :
    w.stopComplete = (w.setLine .idle).modLine fun l => { l with frostFlowed := false } := by
  refine (if_neg ?_).trans (if_neg fun h => ?_)
  · rw [hd]
    exact Bool.false_ne_true
  · rw [hf] at h
    exact absurd h.1 Bool.false_ne_true

theorem drainComplete_idle (hd : w.line.demand = false) :
    w.drainComplete = (w.modLine fun l => { l with frostFlowed := false }).setLine .idle := by
  refine if_neg ?_
  show ¬w.line.demand = true
  rw [hd]
  exact Bool.false_ne_true

theorem lineAfterPulse_stopping (h : w.line.state = .stopping) :
    w.lineAfterPulse .master false = w.stopComplete := by
  unfold lineAfterPulse
  rw [h]

theorem lineAfterPulse_draining (h : w.line.state = .draining) :
    w.lineAfterPulse .drain false = w.drainComplete := by
  unfold lineAfterPulse
  rw [h]

theorem lineAfterPulse_ready (h : w.line.state = .ready) :
    w.lineAfterPulse .pump true =
      ((w.modLine fun l => { l with state := .running, pumpStart := false }).pumpStarted).stopIfIdle := by
  unfold lineAfterPulse
  rw [h]

theorem lineAfterPulse_priming (h : w.line.state = .priming) :
    w.lineAfterPulse .master true = ((w.setLine .ready).sendHeld).stopIfIdle := by
  unfold lineAfterPulse
  rw [h]

/-- The end of the pump start with demand: the line runs and only the runs change besides (R163, R169). -/
theorem pumpStart_end (w : Works) (h : w.line.demand = true) :
    ((w.modLine fun l => { l with state := .running, pumpStart := false }).pumpStarted).stopIfIdle =
      { w with
        line := { w.line with state := .running, pumpStart := false },
        runs := (w.modLine fun l => { l with state := .running, pumpStart := false }).pumpStarted.runs } := by
  have honly := foldl_flowTurn_only allSlots
    (w.modLine fun l => { l with state := .running, pumpStart := false })
  rw [← pumpStarted_eq] at honly
  rw [stopIfIdle_demand (by rw [honly]; exact h)]
  exact honly

theorem beginPulse_done (h : w.line.waiting = []) : w.beginPulse = w := by
  unfold beginPulse
  rw [h]
  split
  · rename_i hcons
    exact nomatch hcons
  · rfl

theorem beginPulse_next {q : PulseRequest} {rest : List PulseRequest} (hp : w.line.pulse = none)
    (h : w.line.waiting = q :: rest) :
    w.beginPulse = w.modLine fun l => { l with
      pulse := some { output := q.output, on := q.on, lengths := w.site.lengths q.output, phase := .lead,
                      passed := false },
      waiting := rest } := by
  unfold beginPulse
  rw [hp, h]

theorem gapEnd_eq (hp : w.line.pulse = some p) (h : p.phase = .gap) :
    w.gapEnd = (w.modLine fun l => { l with pulse := none }).beginPulse := by
  unfold gapEnd
  rw [hp]
  exact if_pos h

end Works

/-- A command whose effect is a work on the shared records. -/
theorem exec_of_works {c : Instr} {f : Works → Works} (he : s.effect c = s.onWorks f) (hw : f s.works = v) :
    exec c s = .next (State.finish { s with works := v }) := by
  rw [exec_eq_effect, he, onWorks, hw]

/-- Settles O46. -/
theorem pulseEndAndGap : Obligations.PulseEndAndGap := by
  refine ⟨fun s p hp ht => ⟨fun hpassed => ?_, fun hpassed hs ho hon hd hf => ?_,
    fun hpassed hs ho hon hd => ?_, fun hpassed hs ho hon hd => ?_, fun hpassed hs ho hon hd => ?_⟩,
    fun s p hp hg => ⟨fun hw => ?_, fun q rest hw => ?_⟩⟩
  · exact exec_of_works rfl (tailEnd_passed hp ht hpassed)
  · refine exec_of_works rfl ((tailEnd_moves hp ht hpassed ho hon).trans ?_)
    rw [lineAfterPulse_stopping (w := s.works.setPhase p .gap) hs,
      stopComplete_idle (w := s.works.setPhase p .gap) hd hf]
    rfl
  · refine exec_of_works rfl ((tailEnd_moves hp ht hpassed ho hon).trans ?_)
    rw [lineAfterPulse_draining (w := s.works.setPhase p .gap) hs,
      drainComplete_idle (w := s.works.setPhase p .gap) hd]
    rfl
  · obtain ⟨u, hu⟩ : ∃ u, u = (s.works.setPhase p .gap).modLine
        fun l => { l with state := .running, pumpStart := false } := ⟨_, rfl⟩
    have hend := (tailEnd_moves hp ht hpassed ho hon).trans
      ((lineAfterPulse_ready (w := s.works.setPhase p .gap) hs).trans
        (pumpStart_end (s.works.setPhase p .gap) hd))
    rw [← hu] at hend
    refine ⟨_, exec_of_works rfl hend, rfl, by constructor <;> rfl, rfl, fun i r hr hflow hmeter => ?_⟩
    have htimed := run_pumpStarted (w := u) (by rw [hu]; exact hr) hflow (by rw [hu]; exact hmeter)
    rw [show u.time = s.works.time by rw [hu]; rfl, show u.site = s.works.site by rw [hu]; rfl] at htimed
    rw [run] at htimed
    generalize u.pumpStarted.runs = runs at htimed ⊢
    exact htimed
  · obtain ⟨u, hu⟩ : ∃ u, u = (s.works.setPhase p .gap).setLine .ready := ⟨_, rfl⟩
    have hline : u.sendHeld.line =
        { s.works.line with state := .ready, pulse := some { p with phase := .gap } } := by
      rw [line_sendHeld, hu]
      rfl
    have hend : s.works.tailEnd = u.sendHeld := by
      rw [tailEnd_moves hp ht hpassed ho hon, lineAfterPulse_priming (w := s.works.setPhase p .gap) hs, ← hu]
      exact stopIfIdle_demand (by rw [hline]; exact hd)
    have hbase : s.works.SameBase u.sendHeld :=
      hend ▸ (tailEnd_keeps (q := true) (n := true) (f := true) s.works).sameBase
    have hruns : u.sendHeld.runs = s.works.runs := by rw [runs_sendHeld, hu]; rfl
    have hvalve (z : ZoneIx) : (u.sendHeld.zone z).valve = (s.works.zone z).valve := by
      rw [valve_sendHeld, hu]
      rfl
    generalize u.sendHeld = v at hline hend hbase hruns hvalve
    exact ⟨_, exec_of_works rfl hend, hline, sameBase_finish (t := { s with works := v }) hbase, hruns,
      hvalve⟩
  · refine exec_of_works rfl ((gapEnd_eq hp hg).trans ?_)
    rw [beginPulse_done (w := s.works.modLine fun l => { l with pulse := none }) hw]
    rfl
  · refine exec_of_works rfl ((gapEnd_eq hp hg).trans ?_)
    rw [beginPulse_next (w := s.works.modLine fun l => { l with pulse := none }) rfl hw]
    rfl

end Sys2Proof.Machine
end

section
/-! PROOF. Deadlines that close a valve: the completion deadline (O40) and the thaw deadline (O35). -/

namespace Sys2Proof.Machine

open Works State

variable {s : State} {w v : Works} {z y : ZoneIx} {i j : SlotIx} {r : Run} {e : RunEntry} {c : EntryCause}

/-! ### Entries that close -/

namespace RunEntry

/-- A credit changes what has been delivered and nothing else (R129). -/
theorem credit_eq (e : RunEntry) (time demand : Nat) :
    e.credit time demand = { e with delivered := (e.credit time demand).delivered } := by
  unfold credit
  split <;> rfl

/-- An entry sent to CLOSING, credited as it was OPEN. -/
def sentClosing (e : RunEntry) (time demand : Nat) (c : EntryCause) : RunEntry :=
  (e.credit time demand).toClosing c

theorem sentClosing_eq (e : RunEntry) (time demand : Nat) (c : EntryCause) :
    e.sentClosing time demand c =
      { e with
        delivered := (e.credit time demand).delivered, state := .closing, openSince := none,
        completion := none, closeCause := some c } := by
  unfold sentClosing
  rw [credit_eq]
  rfl

/-- An entry that has its target is credited no more. -/
theorem credit_full (e : RunEntry) (time demand : Nat) :
    ({ e with delivered := e.target.getD 0 }.credit time demand).delivered = e.target.getD 0 := by
  unfold credit
  split
  · rename_i t o hs ht ho
    have ht : e.target = some t := ht
    simp [ht]
  · rfl

end RunEntry

namespace Works

theorem zone_syncRunSlot_ne (w : Works) (h : y ≠ z) : (w.syncRunSlot z).zone y = w.zone y := by
  unfold syncRunSlot
  dsimp only
  split
  · rfl
  · rw [zone_touch_ne _ h, zone_modZone, if_neg h]

theorem zone_putEntry_ne (w : Works) (i : SlotIx) (g : RunEntry → RunEntry) (h : y ≠ z) :
    (w.putEntry i z g).zone y = w.zone y := zone_syncRunSlot_ne (w.modRun i _) h

theorem sendClosing_eq (w : Works) (i : SlotIx) (c : EntryCause) (z : ZoneIx) :
    w.sendClosing i c z =
      (w.putEntry i z fun e => e.sentClosing w.time (w.demandOf z) c).closeRequest z := rfl

/-- An entry whose valve is OPEN closes with a CLOSE (R156). -/
theorem sendClosing_opened (h : (w.zone z).valve = .opened) (i : SlotIx) (c : EntryCause) :
    w.sendClosing i c z =
      (w.putEntry i z fun e => e.sentClosing w.time (w.demandOf z) c).closeNow z := by
  rw [sendClosing_eq, closeRequest_opened]
  rw [zone_putEntry_valve]
  exact h

theorem run_sendClosing_self (w : Works) (i : SlotIx) (c : EntryCause) (z : ZoneIx) :
    (w.sendClosing i c z).run i =
      (w.run i).map fun r => r.modEntry z fun e => e.sentClosing w.time (w.demandOf z) c := by
  rw [sendClosing_eq, run, runs_closeRequest]
  exact run_putEntry_self w i z _

theorem run_sendClosing_ne (w : Works) (c : EntryCause) (z : ZoneIx) (h : j ≠ i) :
    (w.sendClosing i c z).run j = w.run j := by
  rw [sendClosing_eq, run, runs_closeRequest]
  exact run_putEntry_ne w z _ h

/-- What a close of the zone's OPEN valve comes to: the valve CLOSING under a CLOSE sent once. -/
structure Closes (w v : Works) (z : ZoneIx) : Prop where
  calm : Calm true false w v
  valve : (v.zone z).valve = .closing
  cmd : ∃ k, (v.zone z).cmd = some k ∧ k.kind = .closeValve ∧ k.number = w.cmdNumber ∧ k.attempts = 1
    ∧ k.deadline = some (after w.time w.site.ackWait)
  cmdNumber : v.cmdNumber = w.cmdNumber + 1
  others : ∀ y, y ≠ z → (v.zone y).valve = (w.zone y).valve

theorem closeNow_closes (w : Works) (z : ZoneIx) : Closes w (w.closeNow z) z where
  calm := closeNow_stirs w z
  valve := (zone_closeNow_self w z).1
  cmd := by
    obtain ⟨k, hk, hnew, hattempts, hdeadline⟩ := (zone_closeNow_self w z).2
    exact ⟨k, hk, hnew.kind, hnew.number, hattempts, hdeadline⟩
  cmdNumber := cmdNumber_closeNow w z
  others y hy := congrArg Zone.valve (zone_closeNow_ne w hy)

/-- Quiet work before a close and after it. -/
theorem Closes.after {u : Works} (a : Calm true true u w) (b : Closes w v z) : Closes u v z where
  calm := Calm.trans { a with cmdNumber := nofun, valve := nofun, cmd := nofun } b.calm
  valve := b.valve
  cmd := by rw [← a.cmdNumber rfl, ← a.time, ← a.site]; exact b.cmd
  cmdNumber := by rw [b.cmdNumber, a.cmdNumber rfl]
  others y hy := (b.others y hy).trans (a.valve rfl y)

theorem Closes.before {u : Works} (a : Closes w v z) (b : Calm true true v u) : Closes w u z where
  calm := a.calm.trans { b with cmdNumber := nofun, valve := nofun, cmd := nofun }
  valve := (b.valve rfl z).trans a.valve
  cmd := by rw [b.cmd rfl z]; exact a.cmd
  cmdNumber := (b.cmdNumber rfl).trans a.cmdNumber
  others y hy := (b.valve rfl y).trans (a.others y hy)

theorem sendClosing_closes (h : (w.zone z).valve = .opened) (i : SlotIx) (c : EntryCause) :
    Closes w (w.sendClosing i c z) z := by
  rw [sendClosing_opened h]
  exact (closeNow_closes _ z).after (putEntry_calm w i z _)

/-- An event whose work closes a valve and judges the run. -/
theorem Closes.tellLine (a : Closes w v z) : Closes w v.tellLine z :=
  a.before (tellLine_onlyLine v).calm

/-! ### The completion deadline -/

/-- The completion deadline's own work (R129). -/
def completes (w : Works) (i : SlotIx) (z : ZoneIx) : Works :=
  ((w.putEntry i z fun e => { e with delivered := e.target.getD 0 }).sendClosing i .complete z).judgeRun i

theorem entryComplete_eq (w : Works) (i : SlotIx) (z : ZoneIx) :
    w.entryComplete i z = w.rdpEvent fun w => w.completes i z := rfl

theorem completionDeadline_due {d : Nat} (hr : w.run i = some r) (he : r.entry? z = some e)
    (hs : e.state = .opened) (hd : e.completion = some d) (hle : d ≤ w.time) :
    w.completionDeadline i z = w.entryComplete i z := by
  unfold completionDeadline
  rw [hr]
  dsimp only
  rw [he]
  dsimp only
  rw [hs, hd]
  exact if_pos (reached_of_le hle)

section

variable (hr : w.run i = some r) (hs : r.state = .opening ∨ r.state = .flowing)
  (hvalve : (w.zone z).valve = .opened)
include hr

/-- The run as its entry closes with its target delivered. -/
theorem run_completed :
    ((w.putEntry i z fun e => { e with delivered := e.target.getD 0 }).sendClosing i .complete z).run i =
      some { r with entries := r.entries.map fun x => if x.zone = z then
        { x with
          delivered := x.target.getD 0, state := .closing, openSince := none, completion := none,
          closeCause := some .complete } else x } := by
  rw [run_sendClosing_self, run_putEntry_self, hr]
  simp only [Option.map_some, Run.modEntry, List.map_map]
  refine congrArg (fun es => some { r with entries := es }) (List.map_congr_left fun x _ => ?_)
  by_cases hx : x.zone = z
  · rw [Function.comp, if_pos hx, if_pos hx, if_pos hx, RunEntry.sentClosing_eq, RunEntry.credit_full]
  · simp only [Function.comp, hx, if_false]

include hs hvalve

theorem completes_closes : Closes w (w.completes i z) z := by
  have hput := putEntry_calm (q := true) (k := true) w i z fun e => { e with delivered := e.target.getD 0 }
  have hclose := (sendClosing_closes ((hput.valve rfl z).trans hvalve) i .complete).after hput
  refine hclose.before (judgeRun_calm_of fun x _ hx => ?_)
  rw [run_completed hr] at hx
  rw [← Option.some.inj hx]
  show r.state ≠ .suspending
  rcases hs with hs | hs <;> rw [hs] <;> decide

end

theorem run_completes_ne (w : Works) (z : ZoneIx) (h : j ≠ i) : (w.completes i z).run j = w.run j := by
  rw [completes, (judgeRun_restates _ i).others j h, run_sendClosing_ne _ _ _ h, run_putEntry_ne _ _ _ h]

end Works

/-- Settles O40. -/
theorem completionDeadlineClosesValve : Obligations.CompletionDeadlineClosesValve := by
  intro s i z r e d target hi hr he hs htarget hd hstate hvalve hidle hle
  have hwork := completes_closes hr hstate hvalve
  have hend : s.works.completionDeadline i z = (s.works.completes i z).tellLine := by
    rw [completionDeadline_due hr he hs hd hle, entryComplete_eq]
    exact rdpEvent_of_idle (f := fun w => w.completes i z) (hwork.calm.idle hidle.1)
  obtain ⟨r', hr', hentries⟩ := (judgeRun_restates _ i).run (run_completed (z := z) hr)
  have hclose := hwork.tellLine
  have hexec : exec (.completionDeadline i.val z.val) s =
      .next (State.finish { s with works := (s.works.completes i z).tellLine }) := by
    refine exec_of_works (f := fun w => w.completionDeadline i z) ?_ hend
    show s.completes i.val z.val = _
    unfold State.completes
    rw [irrigationSlot?_val hi, zoneIx?_val]
  have hrun : (s.works.completes i z).tellLine.run i = some r' := (run_tellLine _ i).trans hr'
  have hothers (j : SlotIx) (hj : j ≠ i) : (s.works.completes i z).tellLine.run j = s.works.run j :=
    (run_tellLine _ j).trans (run_completes_ne s.works z hj)
  generalize (s.works.completes i z).tellLine = v at hclose hexec hrun hothers
  exact ⟨_, r', hexec, hrun, hentries, hclose.valve, hclose.cmd, hclose.cmdNumber, hclose.others, hothers⟩

/-! ### The thaw deadline -/

theorem Zone.frostView_figures {a b : Zone} (h : a.frostView = b.frostView) :
    a.frost = b.frost ∧ a.dry = b.dry := ⟨(congrArg Zone.frost h :), (congrArg Zone.dry h :)⟩

namespace Works

theorem thawExpiry_due {d : Nat} (h : (w.zone z).thaw = some d) (hle : d ≤ w.time) :
    w.thawExpiry z = w.thawExpired z := by
  unfold thawExpiry
  rw [h]
  exact if_pos (reached_of_le hle)

theorem thawExpiry_early {d : Nat} (h : (w.zone z).thaw = some d) (hlt : w.time < d) :
    w.thawExpiry z = w := by
  unfold thawExpiry
  rw [h]
  exact if_neg (by rw [not_reached_of_lt hlt]; exact Bool.false_ne_true)

/-- The thaw deadline dropped (R109). -/
def dropThaw (w : Works) (z : ZoneIx) : Works := w.modZone z fun x => { x with thaw := none }

theorem thawExpired_eq (w : Works) (z : ZoneIx) :
    w.thawExpired z = ((w.finishZone z).dropThaw z).settleZone z .thaw := rfl

/-- The zone settles by its dry figure, which neither the finish nor the dropped deadline moves (R104). -/
theorem settledState_finished (w : Works) (z : ZoneIx) :
    ((w.finishZone z).dropThaw z).settledState z = match (w.zone z).dry with
      | some f => if (w.cfg z).watchDry + 5 ≤ f.value then .clear else .watch
      | none => .watch := by
  have hkeeps := finishZone_keeps (q := true) (n := true) (f := true) w z
  have hdry : (((w.finishZone z).dropThaw z).zone z).dry = (w.zone z).dry := by
    rw [dropThaw, zone_modZone_self]
    exact (Zone.frostView_figures (hkeeps.figures rfl z)).2
  have hcfg : ((w.finishZone z).dropThaw z).cfg z = w.cfg z := hkeeps.cfg z
  unfold settledState
  rw [hdry, hcfg] <;> rfl

theorem settled_ne_thawing (w : Works) (z : ZoneIx) : w.settledState z ≠ .thawing := by
  unfold settledState
  split
  · split <;> decide
  · decide

theorem frost_dropThaw (w : Works) (z y : ZoneIx) : ((w.dropThaw z).zone y).frost = (w.zone y).frost := by
  rw [dropThaw, zone_modZone]
  split <;> rfl

theorem dropThaw_calm {q k : Bool} (w : Works) (z : ZoneIx) : Calm q k w (w.dropThaw z) :=
  modZone_calm w z _ (fun _ => by rfl) fun _ => by rfl

/-- Once its thaw deadline is reached the zone is settled, and no other changes its frost state (R109). -/
theorem thawExpired_settles (h : (w.zone z).frost = .thawing) :
    ((w.thawExpired z).zone z).frost = ((w.finishZone z).dropThaw z).settledState z
      ∧ ((w.thawExpired z).zone z).thaw = none ∧ ((w.thawExpired z).zone z).confirm = 0
      ∧ ∀ y, y ≠ z → ((w.thawExpired z).zone y).frost = (w.zone y).frost := by
  have hfrost (y : ZoneIx) : (((w.finishZone z).dropThaw z).zone y).frost = (w.zone y).frost := by
    rw [frost_dropThaw]
    have hkeeps := finishZone_keeps (q := true) (n := true) (f := true) w z
    exact (Zone.frostView_figures (hkeeps.figures rfl y)).1
  have hne : (((w.finishZone z).dropThaw z).zone z).frost ≠ ((w.finishZone z).dropThaw z).settledState z := by
    rw [hfrost, h]
    exact (settled_ne_thawing _ z).symm
  obtain ⟨g, hg⟩ := zone_setFrost_self hne none .thaw
  refine ⟨frost_settleZone_self _ z _, ?_, ?_, fun y hy => ?_⟩
  · rw [thawExpired_eq, settleZone, hg]
  · rw [thawExpired_eq, settleZone, hg]
  · rw [thawExpired_eq, settleZone, zone_setFrost_ne _ _ _ _ hy, hfrost]

/-- The finish's own work closes the zone's OPEN frost entry (R136). -/
theorem finishZone_opened (he : w.frostEntry? z = some e) (hs : e.state = .opened)
    (hvalve : (w.zone z).valve = .opened) (hidle : w.Idle) :
    w.finishZone z = ((w.sendClosing 0 .complete z).judgeFrost).tellLine := by
  have hclose := (sendClosing_closes hvalve 0 .complete).before (judgeFrost_calm _)
  have hwork : (match w.frostEntry? z with
      | some e => if e.state = .opened then (w.sendClosing 0 .complete z).judgeFrost else w
      | none => w) = (w.sendClosing 0 .complete z).judgeFrost := by
    rw [he]
    exact if_pos hs
  have hfinish : w.finishZone z = settleEvents Config.eventBound ((w.sendClosing 0 .complete z).judgeFrost) :=
    congrArg (settleEvents Config.eventBound) hwork
  rw [hfinish]
  exact rdpEvent_of_idle (w := w) (f := fun w => (w.sendClosing 0 .complete z).judgeFrost)
    (hclose.calm.idle hidle)

theorem run_of_frostRun? (h : w.frostRun? = some r) : w.run 0 = some r ∧ r.live = true := by
  unfold frostRun? at h
  split at h
  · rename_i x hx
    split at h
    · rename_i hlive
      obtain rfl := Option.some.inj h
      exact ⟨hx, hlive⟩
    · exact nomatch h
  · exact nomatch h

theorem frostEntry?_of (h : w.frostRun? = some r) (z : ZoneIx) : w.frostEntry? z = r.entry? z := by
  rw [frostEntry?, h]
  rfl

end Works

namespace Works

theorem run_settleZone (w : Works) (z : ZoneIx) (x : FrostCause) (i : SlotIx) :
    (w.settleZone z x).run i = w.run i := by rw [run, runs_settleZone, run]

theorem run_dropThaw (w : Works) (z : ZoneIx) (i : SlotIx) : (w.dropThaw z).run i = w.run i := rfl

/-- The OPEN frost entry of a zone that has thawed closes, cause COMPLETE, and its valve with it (R109,
R136). -/
theorem thawExpired_closes (hr : w.frostRun? = some r) (he : r.entry? z = some e) (hs : e.state = .opened)
    (hvalve : (w.zone z).valve = .opened) (hidle : w.Idle) :
    Closes w (w.thawExpired z) z ∧ ∃ r', (w.thawExpired z).run 0 = some r'
      ∧ r'.entries = r.entries.map fun x => if x.zone = z then
          x.sentClosing w.time (w.demandOf z) .complete else x := by
  have hfinish := finishZone_opened ((frostEntry?_of hr z).trans he) hs hvalve hidle
  have hclose := ((sendClosing_closes hvalve 0 .complete).before (judgeFrost_calm _)).tellLine
  have hrun := (run_sendClosing_self w 0 .complete z).trans (congrArg _ (run_of_frostRun? hr).1)
  obtain ⟨r', hr', hentries⟩ := (judgeFrost_restates _).run hrun
  rw [thawExpired_eq, hfinish]
  refine ⟨(hclose.before (dropThaw_calm _ z)).before (setFrost_calm _ z _ _ _), r', ?_, hentries⟩
  rw [run_settleZone, run_dropThaw, run_tellLine]
  exact hr'

end Works

/-- Settles O35. -/
theorem thawDeadlineSettlesZone : Obligations.ThawDeadlineSettlesZone := by
  intro s z d hfrost hthaw
  have heffect : s.effect (.thawDeadline z.val) = s.onWorks fun w => w.thawExpiry z :=
    congrArg (fun o => s.onRow o Works.thawExpiry) (zoneIx?_val z)
  refine ⟨fun hle => ?_, fun hlt => ?_⟩
  · obtain ⟨hsettled, hnone, hconfirm, hothers⟩ := thawExpired_settles hfrost
    rw [settledState_finished] at hsettled
    have hkeeps := thawExpired_keeps (q := true) (n := true) s.works z
    have haround (v : Works) : s.SameAround (State.finish { s with works := v }) :=
      sameAround_onWorks s fun _ => v
    have hexec := exec_of_works heffect (thawExpiry_due hthaw hle)
    have hclosed := fun r e hr he hs hvalve hidle =>
      thawExpired_closes (w := s.works) (z := z) (r := r) (e := e) hr he hs hvalve hidle
    generalize s.works.thawExpired z = v at *
    refine ⟨_, hexec, hsettled, hnone, hconfirm, hothers, (hkeeps.nodes rfl).1, (hkeeps.nodes rfl).2,
      sameBase_finish (t := { s with works := v }) hkeeps.sameBase, haround v,
      fun r e hr he hs hvalve hidle => ?_⟩
    obtain ⟨hclose, r', hr', hentries⟩ := hclosed r e hr he hs hvalve hidle.1
    simp only [RunEntry.sentClosing_eq] at hentries
    exact ⟨r', hr', hentries, hclose.valve, hclose.cmd⟩
  · exact exec_of_works heffect (thawExpiry_early hthaw hlt)

end Sys2Proof.Machine
end

section
/-! PROOF. How a command ends: an attempt repeated, a command failed (O42). -/

namespace Sys2Proof.Machine

open Works State

variable {s t : State} {w v : Works} {z y : ZoneIx} {i j : SlotIx} {r : Run} {x : RunEntry} {c : Cmd}
  {q : FaultReason} {id : NodeId}

namespace Works

/-! ### The entry that holds a zone -/

theorem findEntry_some {p : EntryState → Bool} (h : w.findEntry z p = some (i, x)) :
    ∃ r, w.run i = some r ∧ r.live = true ∧ r.entry? z = some x ∧ p x.state = true := by
  obtain ⟨a, -, ha⟩ := List.exists_of_findSome?_eq_some h
  split at ha
  · rename_i r hr
    split at ha
    · rename_i hlive
      split at ha
      · rename_i e he
        split at ha
        · rename_i hp
          cases ha
          exact ⟨r, hr, hlive, he, hp⟩
        · exact nomatch ha
      · exact nomatch ha
    · exact nomatch ha
  · exact nomatch ha

theorem findEntry_congr (h : v.runs = w.runs) (z : ZoneIx) (p : EntryState → Bool) :
    v.findEntry z p = w.findEntry z p := by
  unfold findEntry run
  rw [h]

theorem frost_touch (w : Works) (z y : ZoneIx) : ((w.touch z).zone y).frost = (w.zone y).frost :=
  zone_touch_frost w z y

theorem frost_of_keeps {k n : Bool} (h : Keeps k n true w v) (z : ZoneIx) :
    (v.zone z).frost = (w.zone z).frost := (Zone.frostView_figures (h.figures rfl z)).1

/-! ### An entry faulted -/

theorem entryFaulted_calm {k l : Bool} (w : Works) (z : ZoneIx) : Calm k l w (w.entryFaulted z) := by
  unfold entryFaulted
  split
  · exact setFrost_calm w z _ _ _
  · exact setFrost_calm w z _ _ _
  · exact setFrost_calm w z _ _ _
  · exact Calm.refl w
  · exact Calm.refl w
  · exact Calm.refl w

@[simp] theorem runs_entryFaulted (w : Works) (z : ZoneIx) : (w.entryFaulted z).runs = w.runs := by
  unfold entryFaulted
  split
  · exact runs_setFrost w z _ _ _
  · exact runs_setFrost w z _ _ _
  · exact runs_setFrost w z _ _ _
  · rfl
  · rfl
  · rfl

/-- A zone that lost its protection is UNPROTECTED (R111). -/
theorem frost_entryFaulted (w : Works) (z : ZoneIx) :
    ((w.entryFaulted z).zone z).frost =
      if (w.zone z).frost = .clear ∨ (w.zone z).frost = .watch then (w.zone z).frost else .unprotected := by
  unfold entryFaulted
  split
  · rw [frost_setFrost_self, if_neg (by rw [‹(w.zone z).frost = _›]; decide)]
  · rw [frost_setFrost_self, if_neg (by rw [‹(w.zone z).frost = _›]; decide)]
  · rw [frost_setFrost_self, if_neg (by rw [‹(w.zone z).frost = _›]; decide)]
  · rw [if_pos (Or.inl ‹_›)]
  · rw [if_pos (Or.inr ‹_›)]
  · rw [‹(w.zone z).frost = _›, if_neg (by decide)]

/-- The entry FAULTED, and FRW told of a frost entry, before its run is judged. -/
def faultedEntry (w : Works) (i : SlotIx) (z : ZoneIx) (q : FaultReason) : Works :=
  if i = 0 then (w.putEntry i z fun e => e.toFaulted q).entryFaulted z
  else w.putEntry i z fun e => e.toFaulted q

theorem faultEntry_eq (w : Works) (i : SlotIx) (z : ZoneIx) (q : FaultReason) :
    w.faultEntry i z q = (w.faultedEntry i z q).judgeRun i := rfl

theorem faultedEntry_calm {k l : Bool} (w : Works) (i : SlotIx) (z : ZoneIx) (q : FaultReason) :
    Calm k l w (w.faultedEntry i z q) :=
  Calm.ite ((putEntry_calm w i z _).trans (entryFaulted_calm _ z)) (putEntry_calm w i z _)

theorem run_faultedEntry (h : w.run i = some r) (z : ZoneIx) (q : FaultReason) :
    (w.faultedEntry i z q).run i = some (r.modEntry z fun e => e.toFaulted q) := by
  have hput := run_putEntry_self w i z fun e => e.toFaulted q
  rw [h] at hput
  unfold faultedEntry
  split
  · rw [run, runs_entryFaulted]
    exact hput
  · exact hput

/-- The frost state of a zone whose frost entry is FAULTED. -/
theorem frost_faultedEntry (w : Works) (z : ZoneIx) (q : FaultReason) :
    ((w.faultedEntry 0 z q).zone z).frost =
      if (w.zone z).frost = .clear ∨ (w.zone z).frost = .watch then (w.zone z).frost else .unprotected := by
  have hput := frost_of_keeps (putEntry_keeps (q := true) (n := true) w 0 z fun e => e.toFaulted q) z
  unfold faultedEntry
  rw [if_pos rfl, frost_entryFaulted, hput]

theorem openFailed_found (h : w.findEntry z (fun e => e == .opening) = some (i, x)) :
    w.openFailed z q = w.faultEntry i z q := by
  unfold openFailed
  rw [h]

/-- The judgement of a run in OPENING or FLOWING, or of the frost run, owes RDP nothing. -/
theorem judgeRun_calm_moving {k l : Bool} (hr : w.run i = some r)
    (hs : i = 0 ∨ r.state = .opening ∨ r.state = .flowing) : Calm k l w (w.judgeRun i) := by
  refine judgeRun_calm_of fun r' hi hr' => ?_
  rw [← Option.some.inj (hr.symm.trans hr')]
  rcases hs with h | h | h
  · exact absurd h hi
  · rw [h]
    decide
  · rw [h]
    decide

/-- The close of a zone whose command has ended. -/
theorem Closes.of_dropCmd (h : Closes (w.setCmd z none) v z) : Closes w v z where
  calm := (setCmd_stirs w z none).trans h.calm
  valve := h.valve
  cmd := h.cmd
  cmdNumber := h.cmdNumber
  others y hy := (h.others y hy).trans (congrArg Zone.valve (zone_setCmd_ne w none hy))

theorem frost_setCmd (w : Works) (z y : ZoneIx) (d : Option Cmd) :
    ((w.setCmd z d).zone y).frost = (w.zone y).frost := by
  unfold setCmd
  rw [zone_modZone]
  split <;> rfl

/-- A failed OPEN faults its entry and closes the valve (R139, R155). -/
structure OpenFails (w v : Works) (z : ZoneIx) (i : SlotIx) (r : Run) (q : FaultReason) : Prop where
  closes : Closes w v z
  entries : ∃ r', v.run i = some r' ∧ r'.entries = (r.modEntry z fun e => e.toFaulted q).entries
  frost : i = 0 → (v.zone z).frost =
    if (w.zone z).frost = .clear ∨ (w.zone z).frost = .watch then (w.zone z).frost else .unprotected

/-- RDP's part in a failed OPEN: the entry FAULTED and its run judged. -/
theorem openFailed_event (hidle : w.Idle)
    (hfound : w.findEntry z (fun e => e == .opening) = some (i, x)) (hr : w.run i = some r)
    (hs : i = 0 ∨ r.state = .opening ∨ r.state = .flowing) (q : FaultReason) :
    (w.setCmd z none).rdpEvent (fun w => w.openFailed z q) =
        ((w.setCmd z none).faultEntry i z q).tellLine
      ∧ Calm true true (w.setCmd z none) ((w.setCmd z none).faultEntry i z q).tellLine := by
  have hfault := openFailed_found (w := w.setCmd z none) (q := q)
    ((findEntry_congr (runs_setCmd w z none) z _).trans hfound)
  have hrun := run_faultedEntry (w := w.setCmd z none) hr z q
  have hcalm := (faultedEntry_calm (k := true) (l := true) (w.setCmd z none) i z q).trans
    (judgeRun_calm_moving hrun hs)
  refine ⟨?_, hcalm.trans (tellLine_onlyLine _).calm⟩
  rw [rdpEvent_of_idle (w := w.setCmd z none) (f := fun w => w.openFailed z q)
    (by rw [hfault]; exact hcalm.idle hidle), hfault]

theorem openCmdFailed_fails (hidle : w.Idle)
    (hfound : w.findEntry z (fun e => e == .opening) = some (i, x)) (hr : w.run i = some r)
    (hs : i = 0 ∨ r.state = .opening ∨ r.state = .flowing) (hvalve : (w.zone z).valve = .opening)
    (q : FaultReason) : OpenFails w (w.openCmdFailed z q) z i r q := by
  obtain ⟨hevent, hcalm⟩ := openFailed_event hidle hfound hr hs q
  have hfaulted := run_faultedEntry (w := w.setCmd z none) hr z q
  obtain ⟨r', hr', hentries⟩ := (judgeRun_restates _ i).run hfaulted
  have hrun : ((w.setCmd z none).faultEntry i z q).tellLine.run i = some r' := (run_tellLine _ i).trans hr'
  have hfrost (h0 : i = 0) : (((w.setCmd z none).faultEntry i z q).tellLine.zone z).frost =
      if (w.zone z).frost = .clear ∨ (w.zone z).frost = .watch then (w.zone z).frost else .unprotected := by
    subst h0
    rw [zone_tellLine, faultEntry_eq, (judgeRun_restates _ 0).zone z, frost_faultedEntry, frost_setCmd]
  have hopening : (((w.setCmd z none).faultEntry i z q).tellLine.zone z).valve = .opening :=
    (hcalm.valve rfl z).trans ((zone_setCmd_valve w z z none).trans hvalve)
  have hfail : w.openCmdFailed z q = (((w.setCmd z none).faultEntry i z q).tellLine).closeNow z := by
    unfold openCmdFailed
    dsimp only
    rw [hevent]
    exact if_pos hopening
  generalize ((w.setCmd z none).faultEntry i z q).tellLine = u at *
  rw [hfail]
  refine ⟨((closeNow_closes u z).after hcalm).of_dropCmd, ⟨r', ?_, hentries⟩, fun h0 => ?_⟩
  · rw [run, runs_closeNow]
    exact hrun
  · have hkeeps : Keeps true true true u (u.closeNow z) :=
      closeNow_keeps u z (by rw [hopening]; rfl)
    exact (frost_of_keeps hkeeps z).trans (hfrost h0)

/-! ### Commands that end with a notice -/

theorem valveItems_eq (h : (w.cfg z).valveNode = some id) (htables : v.tables = w.tables) :
    v.valveItems z = byte z.val :: beId id := by
  unfold valveItems cfg
  rw [htables]
  unfold cfg at h
  rw [h]
  rfl

/-- A failed renewal is told (R155). -/
theorem renewalFailed_eq (w : Works) (z : ZoneIx) (q : FaultReason) :
    w.renewalFailed z q = (w.setCmd z none).notice .valveFault (byte z.val) [2, q.code] := rfl

/-- A failed CLOSE leaves the valve STUCK and is told, with the zone, its valve node, the result and the
number (R155). -/
theorem closeCmdFailed_eq (h : (w.cfg z).valveNode = some id) (n : Byte) (q : FaultReason) :
    w.closeCmdFailed z n q =
      (((w.setCmd z none).setValve z .stuck).rdpEvent fun v => v.valveStuck z).notice .valveFault
        (byte z.val) ([byte z.val] ++ beId id ++ [0, q.code, n]) := by
  have hkeeps : Keeps true true false w
      (((w.setCmd z none).setValve z .stuck).rdpEvent fun v => v.valveStuck z) :=
    (endValve_keeps w z .stuck rfl).trans (rdpEvent_keeps _ _ (valveStuck_keeps _ z))
  unfold closeCmdFailed valveFault faultDetail
  dsimp only
  rw [valveItems_eq h hkeeps.tables]
  rfl

theorem cmdFailed_open (hk : c.kind = .openValve) (hn : c.renewal = false) (q : FaultReason) :
    w.cmdFailed z c q = w.openCmdFailed z q := by
  unfold cmdFailed
  rw [hk, hn]

theorem cmdFailed_renewal (hk : c.kind = .openValve) (hn : c.renewal = true) (q : FaultReason) :
    w.cmdFailed z c q = w.renewalFailed z q := by
  unfold cmdFailed
  rw [hk, hn]

theorem cmdFailed_close (hk : c.kind = .closeValve) (q : FaultReason) :
    w.cmdFailed z c q = w.closeCmdFailed z c.number q := by
  unfold cmdFailed
  rw [hk]

/-! ### The ack deadline -/

section

variable {d : Nat} (hc : (w.zone z).cmd = some c) (hd : c.deadline = some d)
include hc hd

theorem ackDeadline_due (hle : d ≤ w.time) :
    w.ackDeadline z = if c.attempts < w.site.attempts then w.attempt z else w.cmdFailed z c .noAck := by
  unfold ackDeadline
  rw [hc]
  dsimp only
  rw [hd]
  exact if_pos (reached_of_le hle)

theorem ackDeadline_early (hlt : w.time < d) : w.ackDeadline z = w := by
  unfold ackDeadline
  rw [hc]
  dsimp only
  rw [hd]
  exact if_neg (by rw [not_reached_of_lt hlt]; exact Bool.false_ne_true)

end

theorem attempted_close (h : c.kind = .closeValve) :
    w.attempted z c =
      { c with
        attempts := c.attempts + 1, limited := c.limited,
        deadline := some (after w.time w.site.ackWait) } := by
  have hlimit : w.attemptLimit z c = 0 := by
    unfold attemptLimit
    rw [h]
  unfold attempted
  rw [hlimit]
  simp

theorem attempted_open (h : c.kind = .openValve) :
    w.attempted z c =
      { c with
        attempts := c.attempts + 1, limited := c.limited || decide (0 < w.openLimit z),
        deadline := some (after w.time w.site.ackWait) } := by
  have hlimit : w.attemptLimit z c = w.openLimit z := by
    unfold attemptLimit
    rw [h]
  unfold attempted
  rw [hlimit]

theorem zone_attempt_self (h : (w.zone z).cmd = some c) :
    (w.attempt z).zone z = { w.zone z with cmd := some (w.attempted z c) } := by
  rw [zone, zones_attempt h]
  exact zone_modZone_self w z _

theorem zone_attempt_ne (h : (w.zone z).cmd = some c) (hy : y ≠ z) : (w.attempt z).zone y = w.zone y := by
  rw [zone, zones_attempt h]
  exact zone_setCmd_ne w _ hy

/-- An attempt at a CLOSE goes out behind the frames of URGENT when it has room. -/
theorem urgent_attempt_close (h : (w.zone z).cmd = some c) (hk : c.kind = .closeValve)
    (hid : (w.cfg z).valveNode = some id) (hroom : w.urgent.length < 8) :
    (w.attempt z).urgent = w.urgent ++ [w.composed 0x07 id [0x02, c.number, 0, 0]] := by
  rw [attempt_close h hk hid, submitUrgent_of_room (w := w.setCmd z _) hroom]
  rfl

/-- An attempt at an OPEN goes out behind the frames of COMMAND when it has room. -/
theorem command_attempt_open (h : (w.zone z).cmd = some c) (hk : c.kind = .openValve)
    (hid : (w.cfg z).valveNode = some id) (hroom : w.command.length ≤ 14) :
    (w.attempt z).command =
      w.command ++ [w.composed 0x07 id ([0x01, c.number] ++ be16 (w.openLimit z))] := by
  rw [attempt_open h hk hid, submitCommand_of_room (w := w.setCmd z _) hroom]
  rfl

end Works

/-- The failed OPEN in the state after its command. -/
theorem openFailed_of_fails (h : OpenFails s.works v z i r q) (hzones : t.works.zones = v.zones)
    (hruns : t.works.runs = v.runs) : s.OpenFailed t z i r q := by
  have hzone (y : ZoneIx) : t.works.zone y = v.zone y := by rw [zone, hzones, zone]
  have hrun : t.works.run i = v.run i := by rw [run, hruns, run]
  obtain ⟨r', hr', hentries⟩ := h.entries
  obtain ⟨k, hk, hkind, hnumber, hattempts, -⟩ := h.closes.cmd
  refine ⟨⟨r', hrun.trans hr', hentries.trans rfl⟩, (congrArg Zone.valve (hzone z)).trans h.closes.valve,
    ⟨k, (congrArg Zone.cmd (hzone z)).trans hk, hkind, hnumber, hattempts⟩, fun h0 => ?_, fun y hy => ?_⟩
  · exact (congrArg Zone.frost (hzone z)).trans (h.frost h0)
  · exact (congrArg Zone.valve (hzone y)).trans (h.closes.others y hy)

/-- Settles O42. -/
theorem ackDeadlineRepeatsCommand : Obligations.AckDeadlineRepeatsCommand := by
  intro s z c d id hc hd hid again
  have heffect : s.effect (.ackDeadline z.val) = s.onWorks fun w => w.ackDeadline z :=
    congrArg (fun o => s.onRow o Works.ackDeadline) (zoneIx?_val z)
  have hretry (hle : d ≤ s.works.time) (hleft : c.attempts < s.works.site.attempts) :
      exec (.ackDeadline z.val) s = .next (State.finish { s with works := s.works.attempt z }) :=
    exec_of_works heffect ((ackDeadline_due hc hd hle).trans (if_pos hleft))
  have hfailed (hle : d ≤ s.works.time) (hnone : s.works.site.attempts ≤ c.attempts) :
      exec (.ackDeadline z.val) s =
        .next (State.finish { s with works := s.works.cmdFailed z c .noAck }) :=
    exec_of_works heffect ((ackDeadline_due hc hd hle).trans (if_neg (Nat.not_lt.mpr hnone)))
  have hself := zone_attempt_self hc
  have hothers := fun y => zone_attempt_ne (y := y) hc
  have hruns := runs_attempt s.works z
  have hline := line_attempt s.works z
  refine ⟨fun hle hk hleft hroom => ?_, fun hle hk hleft hroom => ?_, fun hle hk hnone => ?_,
    fun hle hk hn hnone => ?_, fun hle hk hn hnone i r x hopens => ?_, fun hlt => ?_⟩
  · rw [attempted_close hk] at hself
    exact ⟨_, hretry hle hleft, hself, hothers, urgent_attempt_close hc hk hid hroom, hruns, hline⟩
  · rw [attempted_open hk] at hself
    exact ⟨_, hretry hle hleft, hself, hothers, command_attempt_open hc hk hid hroom, hruns, hline⟩
  · rw [hfailed hle hnone, cmdFailed_close hk, closeCmdFailed_eq hid]
    rfl
  · rw [hfailed hle hnone, cmdFailed_renewal hk hn]
    rfl
  · have hfails := openCmdFailed_fails hopens.idle.1 hopens.found hopens.run hopens.state hopens.valve .noAck
    rw [hfailed hle hnone, cmdFailed_open hk hn]
    generalize s.works.openCmdFailed z .noAck = v at hfails
    exact ⟨_, rfl, openFailed_of_fails hfails rfl rfl⟩
  · exact exec_of_works heffect (ackDeadline_early hc hd hlt)

end Sys2Proof.Machine
end

section
/-! PROOF. A matching acknowledgement ends its command (O43). -/

namespace Sys2Proof.Machine

open Works State

variable {s t : State} {w v : Works} {z y : ZoneIx} {i j : SlotIx} {r : Run} {x : RunEntry} {c : Cmd}

/-! ### Runs that change state -/

theorem Run.entry?_modEntry {g : RunEntry → RunEntry} (hg : ∀ e, (g e).zone = e.zone)
    (h : r.entry? z = some x) : (r.modEntry z g).entry? z = some (g x) := by
  have hpred : (fun e : RunEntry => e.zone == z) ∘ (fun e => if e.zone = z then g e else e) =
      fun e => e.zone == z := by
    funext e
    by_cases he : e.zone = z
    · simp [he, hg]
    · simp [he]
  have hz : x.zone = z := by simpa using List.find?_some h
  unfold Run.entry? at h ⊢
  rw [Run.modEntry, List.find?_map, hpred, h]
  simp [hz]

theorem Run.has_of_entry? {e : EntryState} (h : r.entry? z = some x) (hs : x.state = e) :
    r.has e = true :=
  List.any_eq_true.mpr ⟨x, List.mem_of_find?_eq_some h, by simp [hs]⟩

theorem Run.frostState_of_opened (h : r.has .opened = true) : r.frostState = .flowing := if_pos h

namespace Works

theorem state_startFlowDeadline (h : w.run i = some r) :
    ∃ r', (w.startFlowDeadline i).run i = some r' ∧ r'.entries = r.entries ∧ r'.state = r.state := by
  unfold startFlowDeadline
  split
  · rw [run_modRun_self, h]
    exact ⟨_, rfl, rfl, rfl⟩
  · exact ⟨r, h, rfl, rfl⟩

theorem state_nowFlowing (h : w.run i = some r) :
    ∃ r', (w.nowFlowing i).run i = some r' ∧ r'.entries = r.entries ∧ r'.state = r.state := by
  have hflows : (if i = 0 then w.frostFlows else w).run i = some r := by
    split
    · exact h
    · exact h
  unfold nowFlowing
  dsimp only
  generalize (if i = 0 then w.frostFlows else w) = u at hflows ⊢
  split
  · exact state_startFlowDeadline hflows
  · exact ⟨r, hflows, rfl, rfl⟩

/-- The state of a run after its change of state. -/
theorem state_setRunState (h : w.run i = some r) (new : RunState) (a : Option RunCause) :
    ∃ r', (w.setRunState i new a).run i = some r' ∧ r'.entries = r.entries ∧ r'.state = new := by
  by_cases hn : r.state = new
  · subst hn
    exact ⟨r, by rw [setRunState_same h]; exact h, rfl, rfl⟩
  · have hput : ((w.modRun i fun r => r.inState new a).runNotice i (some r.state)).run i =
        some (r.inState new a) := by
      rw [run, runs_runNotice]
      exact (run_modRun_self w i _).trans (by rw [h]; rfl)
    rw [setRunState_new h hn]
    split
    · exact state_nowFlowing hput
    · exact ⟨_, hput, rfl, rfl⟩

theorem frostRun?_of_run (h : w.run 0 = some r) (hlive : r.live = true) : w.frostRun? = some r := by
  unfold frostRun?
  rw [h]
  exact if_pos hlive

theorem judgeFrost_of (h : w.frostRun? = some r) : w.judgeFrost = w.setRunState 0 r.frostState none := by
  unfold judgeFrost
  rw [h]

/-! ### An OPEN acknowledged -/

theorem runs_entryOpen (w : Works) (z : ZoneIx) : (w.entryOpen z).runs = w.runs := by
  unfold entryOpen
  split
  · exact runs_setFrost w z _ _ _
  · rfl

theorem entryOpen_calm {k l : Bool} (w : Works) (z : ZoneIx) : Calm k l w (w.entryOpen z) :=
  Calm.ite (setFrost_calm w z _ _ _) (Calm.refl w)

/-- A zone in WARNING whose frost entry opens is PROTECTING (R107). -/
theorem frost_entryOpen (w : Works) (z : ZoneIx) :
    ((w.entryOpen z).zone z).frost =
      if (w.zone z).frost = .warning then .protecting else (w.zone z).frost := by
  unfold entryOpen
  split
  · exact frost_setFrost_self w z _ _ _
  · rfl

/-- The entry OPEN, and FRW told of a frost entry, before its run is judged (R129). -/
def openedEntry (w : Works) (i : SlotIx) (z : ZoneIx) : Works :=
  if i = 0 then (w.putEntry i z fun e => e.toOpen w.time (w.demandOf z)).entryOpen z
  else w.putEntry i z fun e => e.toOpen w.time (w.demandOf z)

theorem openDone_found (h : w.findEntry z (fun e => e == .opening) = some (i, x)) :
    w.openDone z = (w.openedEntry i z).judgeRun i := by
  unfold openDone
  rw [h]
  rfl

theorem openedEntry_calm {k l : Bool} (w : Works) (i : SlotIx) (z : ZoneIx) :
    Calm k l w (w.openedEntry i z) :=
  Calm.ite ((putEntry_calm w i z _).trans (entryOpen_calm _ z)) (putEntry_calm w i z _)

theorem run_openedEntry (h : w.run i = some r) (z : ZoneIx) :
    (w.openedEntry i z).run i = some (r.modEntry z fun e => e.toOpen w.time (w.demandOf z)) := by
  have hput := run_putEntry_self w i z fun e => e.toOpen w.time (w.demandOf z)
  rw [h] at hput
  unfold openedEntry
  split
  · rw [run, runs_entryOpen]
    exact hput
  · exact hput

theorem frost_openedEntry (w : Works) (z : ZoneIx) :
    ((w.openedEntry 0 z).zone z).frost =
      if (w.zone z).frost = .warning then .protecting else (w.zone z).frost := by
  have hput := frost_of_keeps (putEntry_keeps (q := true) (n := true) w 0 z
    fun e => e.toOpen w.time (w.demandOf z)) z
  unfold openedEntry
  rw [if_pos rfl, frost_entryOpen, hput]

/-- The valve believed OPEN, its command ended (R154). -/
def openedValve (w : Works) (z : ZoneIx) : Works := (w.setCmd z none).setValve z .opened

/-- What RDP makes of an OPEN that is done, before MLD is told (R129). -/
structure OpenDone (w v : Works) (z : ZoneIx) (i : SlotIx) (r : Run) : Prop where
  calm : Calm true true w v
  entries : ∃ r', v.run i = some r'
    ∧ r'.entries = (r.modEntry z fun e => e.toOpen w.time (w.demandOf z)).entries
  frost : i = 0 → (v.zone z).frost = if (w.zone z).frost = .warning then .protecting else (w.zone z).frost
  placed : i = 0 → v.placedOpen z = true

theorem placedOpen_of (hr : w.run 0 = some r) (hlive : r.live = true) (he : r.entry? z = some x)
    (hs : x.state = .opened) : w.placedOpen z = true := by
  unfold placedOpen
  rw [frostEntry?_of (frostRun?_of_run hr hlive), he]
  exact beq_iff_eq.mpr hs

theorem openDone_done (hfound : w.findEntry z (fun e => e == .opening) = some (i, x)) (hr : w.run i = some r)
    (hs : i = 0 ∨ r.state = .opening ∨ r.state = .flowing) : OpenDone w (w.openDone z) z i r := by
  obtain ⟨r', hr', hlive, he, -⟩ := findEntry_some hfound
  obtain rfl := Option.some.inj (hr.symm.trans hr')
  have hopened := run_openedEntry hr z
  have hentry := Run.entry?_modEntry (g := fun e => e.toOpen w.time (w.demandOf z)) (fun _ => rfl) he
  rw [openDone_found hfound]
  refine ⟨(openedEntry_calm w i z).trans (judgeRun_calm_moving hopened hs),
    (judgeRun_restates _ i).run hopened, fun h0 => ?_, fun h0 => ?_⟩
  · subst h0
    rw [(judgeRun_restates _ 0).zone z, frost_openedEntry]
  · subst h0
    have hflowing : (r.modEntry z fun e => e.toOpen w.time (w.demandOf z)).frostState = .flowing :=
      Run.frostState_of_opened (Run.has_of_entry? hentry rfl)
    obtain ⟨r', hr', hentries, hstate⟩ := state_setRunState hopened .flowing none
    have hjudged : (w.openedEntry 0 z).judgeRun 0 = (w.openedEntry 0 z).setRunState 0 .flowing none := by
      rw [← hflowing]
      exact (if_pos rfl).trans (judgeFrost_of (frostRun?_of_run hopened hlive))
    rw [hjudged]
    have hlive' : r'.live = true := by rw [Run.live, hstate]; rfl
    refine placedOpen_of (x := x.toOpen w.time (w.demandOf z)) hr' hlive' ?_ rfl
    unfold Run.entry? at hentry ⊢
    rw [hentries]
    exact hentry

theorem placedOpen_congr (h : v.runs = w.runs) : v.placedOpen z = w.placedOpen z := by
  unfold placedOpen frostEntry? frostRun? run
  rw [h]

/-- RDP's and MLD's part in an OPEN that is done (R129, R154). -/
theorem openAcknowledged_eq (hidle : w.Idle)
    (hfound : w.findEntry z (fun e => e == .opening) = some (i, x)) (hr : w.run i = some r)
    (hs : i = 0 ∨ r.state = .opening ∨ r.state = .flowing) :
    w.openAcknowledged z c = ((((w.openedValve z).openDone z).tellLine).openReported).renewIfCarried z c
      ∧ OpenDone (w.openedValve z) ((((w.openedValve z).openDone z).tellLine).openReported) z i r := by
  have hruns : (w.openedValve z).runs = w.runs := runs_setValve (w.setCmd z none) z .opened
  have hdone := openDone_done (w := w.openedValve z) ((findEntry_congr hruns z _).trans hfound)
    ((by rw [run, hruns]; rfl : (w.openedValve z).run i = w.run i).trans hr) hs
  have hcalm : Calm true false w (w.openedValve z) := (setCmd_stirs w z none).trans (setValve_stirs _ z _)
  have hevent :
      (w.openedValve z).rdpEvent (fun w => w.openDone z) = ((w.openedValve z).openDone z).tellLine :=
    rdpEvent_of_idle (f := fun w => w.openDone z) (hdone.calm.idle (hcalm.idle hidle))
  have honly := (tellLine_onlyLine ((w.openedValve z).openDone z)).trans (openReported_onlyLine _)
  have hzone (y : ZoneIx) := congrArg (fun zs : Vector Zone 40 => zs[y]) honly.zones
  have hrun (j : SlotIx) := congrArg (fun rs : Vector (Option Run) 12 => rs[j]) honly.runs
  refine ⟨?_, hdone.calm.trans honly.calm, ?_, fun h0 => ?_, fun h0 => ?_⟩
  · show (((w.openedValve z).rdpEvent fun w => w.openDone z).openReported).renewIfCarried z c = _
    rw [hevent]
  · obtain ⟨r', hr', hentries⟩ := hdone.entries
    exact ⟨r', (hrun i).trans hr', hentries⟩
  · exact (congrArg Zone.frost (hzone z)).trans (hdone.frost h0)
  · exact (placedOpen_congr honly.runs).trans (hdone.placed h0)

end Works

end Sys2Proof.Machine
end

section
/-! PROOF. VALVE_ACK: what it does with the command it matches (O43). -/

namespace Sys2Proof.Machine

open Works State

variable {s t : State} {w v : Works} {z y : ZoneIx} {i j : SlotIx} {r : Run} {x : RunEntry} {c : Cmd}
  {h : HandOff} {rest : List HandOff} {f : FieldFrame} {number result : Byte}

namespace Works

/-! ### What an acknowledgement matches -/

section

variable (hz : w.valveZone? f.src = some z) (hp : f.payload = [number, result])
  (hc : (w.zone z).cmd = some c)
include hz hp hc

theorem takeAck_stale (hn : c.number ≠ number) : w.takeAck f.src f.payload = w := by
  unfold takeAck
  rw [hz, hp]
  dsimp only
  rw [hc]
  split
  · rename_i a b ha hb
    exact if_neg (Option.some.inj ha ▸ hn)
  · rfl

theorem takeAck_done (hn : c.number = number) (hr : result = 0x01) :
    w.takeAck f.src f.payload = w.cmdDone z c := by
  unfold takeAck
  rw [hz, hp, hr]
  dsimp only
  rw [hc]
  exact if_pos hn

theorem takeAck_failed {q : FaultReason} (hn : c.number = number)
    (hr : result = 0x02 ∧ q = .localFault ∨ result = 0x03 ∧ q = .fault) :
    w.takeAck f.src f.payload = w.cmdFailed z c q := by
  unfold takeAck
  rw [hz, hp]
  dsimp only
  rw [hc]
  rcases hr with ⟨rfl, rfl⟩ | ⟨rfl, rfl⟩
  · exact if_pos hn
  · exact if_pos hn

end

theorem cmdDone_renewal (hk : c.kind = .openValve) (hn : c.renewal = true) :
    w.cmdDone z c = w.setCmd z none := by
  unfold cmdDone
  rw [hk, hn]

theorem cmdDone_open (hk : c.kind = .openValve) (hn : c.renewal = false) :
    w.cmdDone z c = w.openAcknowledged z c := by
  unfold cmdDone
  rw [hk, hn]

theorem cmdDone_close (hk : c.kind = .closeValve) (hf : c.followOn = false) :
    w.cmdDone z c = w.closeAcknowledged z := by
  unfold cmdDone
  rw [hk, hf]

theorem cmdDone_followOn (hk : c.kind = .closeValve) (hf : c.followOn = true) :
    w.cmdDone z c = w.followOnAcknowledged z := by
  unfold cmdDone
  rw [hk, hf]

/-! ### The valve that has opened -/

theorem frost_setValve (w : Works) (z y : ZoneIx) (x : ValveState) :
    ((w.setValve z x).zone y).frost = (w.zone y).frost := by
  unfold setValve
  split
  · rfl
  · rw [zone_touch_frost, zone_modZone]
    split <;> rfl

/-- The renewal that follows a carried OPEN, or none (R154). -/
theorem renewIfCarried_cases (w : Works) (z : ZoneIx) (c : Cmd) :
    w.renewIfCarried z c = w ∨ w.renewIfCarried z c = w.renew z := by
  unfold renewIfCarried
  split
  · exact Or.inr rfl
  · exact Or.inl rfl

theorem renewIfCarried_unlimited (h : c.limited = false) : w.renewIfCarried z c = w :=
  if_neg (by rw [h]; exact Bool.false_ne_true)

theorem renewIfCarried_placed (h : c.limited = true) (hp : w.placedOpen z = true) :
    w.renewIfCarried z c = w.renew z := if_pos (by rw [h, hp]; rfl)

theorem runs_renewIfCarried (w : Works) (z : ZoneIx) (c : Cmd) :
    (w.renewIfCarried z c).runs = w.runs := by
  rcases renewIfCarried_cases w z c with h | h <;> rw [h]
  exact runs_createCmd w z _ _

theorem valve_renewIfCarried (w : Works) (z y : ZoneIx) (c : Cmd) :
    ((w.renewIfCarried z c).zone y).valve = (w.zone y).valve := by
  rcases renewIfCarried_cases w z c with h | h <;> rw [h]
  exact zone_createCmd_valve w z y _ _

/-- What a done OPEN comes to (R129, R154, R158). -/
structure Opened (w v : Works) (z : ZoneIx) (i : SlotIx) (r : Run) (c : Cmd) : Prop where
  valve : (v.zone z).valve = .opened
  others : ∀ y, y ≠ z → (v.zone y).valve = (w.zone y).valve
  entries : ∃ r', v.run i = some r'
    ∧ r'.entries = (r.modEntry z fun e => e.toOpen w.time (w.demandOf z)).entries
  frost : i = 0 → (v.zone z).frost = if (w.zone z).frost = .warning then .protecting else (w.zone z).frost
  noCmd : c.limited = false → (v.zone z).cmd = none
  renewed : c.limited = true → i = 0 → ∃ k, (v.zone z).cmd = some k ∧ k.kind = .openValve
    ∧ k.renewal = true ∧ k.number = w.cmdNumber

theorem openAcknowledged_opened (hidle : w.Idle)
    (hfound : w.findEntry z (fun e => e == .opening) = some (i, x)) (hr : w.run i = some r)
    (hs : i = 0 ∨ r.state = .opening ∨ r.state = .flowing) :
    Opened w (w.openAcknowledged z c) z i r c := by
  obtain ⟨heq, hdone⟩ := openAcknowledged_eq (c := c) hidle hfound hr hs
  have hcalm : Calm true false w (w.openedValve z) := (setCmd_stirs w z none).trans (setValve_stirs _ z _)
  have hvalve (y : ZoneIx) :
      ((w.openedValve z).zone y).valve = if y = z then .opened else (w.zone y).valve := by
    rw [openedValve, zone_setValve_valve, zone_setCmd_valve]
  have hcmd : ((w.openedValve z).zone z).cmd = none := by
    rw [openedValve, zone_setValve_cmd, zone_setCmd_cmd, if_pos rfl]
  have hfrost : ((w.openedValve z).zone z).frost = (w.zone z).frost := by
    rw [openedValve, frost_setValve, frost_setCmd]
  have hnumber : (w.openedValve z).cmdNumber = w.cmdNumber := cmdNumber_setValve _ _ _
  obtain ⟨r', hr', hentries⟩ := hdone.entries
  rw [hcalm.time, hcalm.demandOf] at hentries
  rw [heq]
  generalize ((w.openedValve z).openDone z).tellLine.openReported = u at *
  refine ⟨?_, fun y hy => ?_, ⟨r', ?_, hentries⟩, fun h0 => ?_, fun hl => ?_, fun hl h0 => ?_⟩
  · rw [valve_renewIfCarried, hdone.calm.valve rfl, hvalve, if_pos rfl]
  · rw [valve_renewIfCarried, hdone.calm.valve rfl, hvalve, if_neg hy]
  · rw [run, runs_renewIfCarried]
    exact hr'
  · have hkeeps : Keeps true true true u (u.renewIfCarried z c) := renewIfCarried_keeps u z c
    rw [frost_of_keeps hkeeps, hdone.frost h0, hfrost]
  · rw [renewIfCarried_unlimited hl, hdone.calm.cmd rfl, hcmd]
  · obtain ⟨k, hk, hnew⟩ := zone_createCmd_self u z .openValve true
    rw [renewIfCarried_placed hl (hdone.placed h0)]
    refine ⟨k, congrArg Zone.cmd hk, hnew.kind, hnew.renewal, hnew.number.trans ?_⟩
    rw [hdone.calm.cmdNumber rfl, hnumber]

/-! ### The follow-on of a CLOSE -/

theorem freeCapacity_congr (ht : v.tables = w.tables) (hv : ∀ z, (v.zone z).valve = (w.zone z).valve) :
    v.freeCapacity = w.freeCapacity := by
  have hd : v.demandOf = w.demandOf := by
    funext z
    simp only [demandOf, cfg, ht]
  have hz (p : ValveState → Bool) : v.zonesWithValve p = w.zonesWithValve p := by
    unfold zonesWithValve
    exact List.filter_congr fun z _ => by rw [hv]
  simp only [freeCapacity, admittedDemand, heldDemand, demandSum, hd, hz, site, ht]

/-- The valve believed CLOSED, its command ended. -/
def closedValve (w : Works) (z : ZoneIx) : Works := (w.setCmd z none).setValve z .closed

theorem followOnAcknowledged_eq (w : Works) (z : ZoneIx) :
    w.followOnAcknowledged z =
      if w.frostOpening z && w.valveNodeReady z && (w.closedValve z).fits z then
        (w.setCmd z none).openRequest z
      else (w.closedValve z).rdpEvent fun w => w.followOnLost z := rfl

theorem valveNodeReady_of {id : NodeId} (h : (w.cfg z).valveNode = some id) :
    w.valveNodeReady z = w.nodeReady id := by
  unfold valveNodeReady
  rw [h]

theorem closedValve_fits (w : Works) (z : ZoneIx) :
    (w.closedValve z).fits z = decide (w.demandOf z ≤ (w.setValve z .closed).freeCapacity) := by
  have hcalm : Calm true false w (w.closedValve z) := (setCmd_stirs w z none).trans (setValve_stirs _ z _)
  have hcalm' : Calm true false w (w.setValve z .closed) := setValve_stirs w z _
  have hfree : (w.closedValve z).freeCapacity = (w.setValve z .closed).freeCapacity := by
    refine freeCapacity_congr (hcalm.tables.trans hcalm'.tables.symm) fun y => ?_
    rw [closedValve, zone_setValve_valve, zone_setCmd_valve, zone_setValve_valve]
  rw [fits, hcalm.demandOf, hfree]

theorem zone_openRequest_ne (w : Works) (hy : y ≠ z) : (w.openRequest z).zone y = w.zone y := by
  rw [openRequest, zone_createCmd_ne _ _ _ hy, zone_setValve_ne _ _ hy]

/-- An open request: the valve OPENING under a new OPEN (R123, R149). -/
theorem zone_openRequest_self (w : Works) (z : ZoneIx) :
    ((w.openRequest z).zone z).valve = .opening
      ∧ ∃ k, ((w.openRequest z).zone z).cmd = some k ∧ NewCmd (w.setValve z .opening) .openValve false k := by
  obtain ⟨k, hk, hnew⟩ := zone_createCmd_self (w.setValve z .opening) z .openValve false
  refine ⟨?_, k, congrArg Zone.cmd hk, hnew⟩
  rw [openRequest, zone_createCmd_valve, zone_setValve_valve, if_pos rfl]

theorem frostOpening_entry (h : w.frostOpening z = true) :
    ∃ r, w.frostRun? = some r := by
  unfold frostOpening at h
  cases hr : w.frostRun? with
  | none => rw [frostEntry?, hr] at h; exact nomatch h
  | some r => exact ⟨r, rfl⟩

theorem followOnLost_offer (w : Works) (z : ZoneIx) : (w.followOnLost z).offer = true := by
  unfold followOnLost
  split <;> rfl

/-- The OPENING frost entry of a follow-on that no longer holds waits again (R157). -/
theorem followOnLost_waits (hr : w.frostRun? = some r) (ho : w.frostOpening z = true) :
    ∃ r', (w.followOnLost z).run 0 = some r' ∧ r'.entries = r.entries.map fun y => if y.zone = z then
      { y with state := .waiting, openSince := none, completion := none, closeCause := none } else y := by
  have hput := (run_putEntry_self w 0 z fun e => e.become .waiting).trans
    (congrArg _ (run_of_frostRun? hr).1)
  obtain ⟨r', hr', hentries⟩ := (judgeFrost_restates _).run hput
  refine ⟨r', ?_, hentries⟩
  rw [followOnLost, if_pos ho]
  exact hr'

end Works

/-! ### The command -/

theorem exec_valveAck (hq : s.vcuQueue = h :: rest) (hf : fieldFrame? h.frame = some f)
    (hw : s.works.takeAck f.src f.payload = v) :
    exec .valveAck s = .next (State.finish { s with vcuQueue := rest, works := v }) := by
  have hvcu : s.takeVcu = { s with vcuQueue := rest, works := v } := by
    unfold takeVcu
    rw [hq]
    dsimp only
    rw [hf]
    dsimp only
    rw [onWorks, hw]
  rw [exec_eq_effect]
  exact congrArg (fun u : State => Host.Outcome.next u.finish) hvcu

/-- Settles O43. -/
theorem valveAckEndsCommand : Obligations.ValveAckEndsCommand := by
  intro s h rest f z c number result hq hf hp hz hc after_
  have hnode := (valveZone?_node hz).2
  have hexec {v : Works} (hw : s.works.takeAck f.src f.payload = v) := exec_valveAck hq hf hw
  refine ⟨fun hn => ?_, fun hn hr => ⟨fun hk hren => ?_, fun hk hren i r x hopens => ?_, fun hk hfollow => ?_,
    fun hk hfollow => ⟨fun ho hready hfits => ?_, fun hlost => ?_, followOnLost_offer s.works z,
      fun r hr ho => followOnLost_waits hr ho⟩⟩,
    fun q hn hr => ⟨fun hk hren => ?_, fun hk => ?_, fun hk hren i r x hopens => ?_⟩⟩
  · exact hexec (takeAck_stale hz hp hc hn)
  · refine ⟨_, hexec ((takeAck_done hz hp hc hn hr).trans (cmdDone_renewal hk hren)), zone_modZone_self _ _ _,
      fun y hy => zone_setCmd_ne s.works none hy, rfl, by constructor <;> rfl, rfl⟩
  · have hopened := openAcknowledged_opened (c := c) hopens.idle.1 hopens.found hopens.run hopens.state
    have hacked := hexec ((takeAck_done hz hp hc hn hr).trans (cmdDone_open hk hren))
    generalize s.works.openAcknowledged z c = v at hopened hacked
    obtain ⟨r', hr', hentries⟩ := hopened.entries
    exact ⟨_, r', hacked, rfl, hopened.valve, hr', hentries, hopened.frost, hopened.noCmd, hopened.renewed,
      hopened.others⟩
  · exact hexec ((takeAck_done hz hp hc hn hr).trans (cmdDone_close hk hfollow))
  · have hdone := (takeAck_done hz hp hc hn hr).trans (cmdDone_followOn hk hfollow)
    have hholds : (s.works.frostOpening z && s.works.valveNodeReady z
        && (s.works.closedValve z).fits z) = true := by
      rw [ho, valveNodeReady_of hnode, hready, closedValve_fits, decide_eq_true hfits]
      rfl
    rw [followOnAcknowledged_eq, if_pos hholds] at hdone
    obtain ⟨hvalve, k, hk', hnew⟩ := zone_openRequest_self (s.works.setCmd z none) z
    have hothers (y : ZoneIx) (hy : y ≠ z) :
        ((s.works.setCmd z none).openRequest z).zone y = s.works.zone y :=
      (zone_openRequest_ne _ hy).trans (zone_setCmd_ne _ _ hy)
    have hruns : ((s.works.setCmd z none).openRequest z).runs = s.works.runs := runs_openRequest _ _
    have hnumber : k.number = s.works.cmdNumber := hnew.number.trans (cmdNumber_setValve _ _ _)
    generalize (s.works.setCmd z none).openRequest z = v at hdone hvalve hk' hothers hruns
    exact ⟨_, k, hexec hdone, rfl, hruns, hvalve, hk', hnew.kind, hnew.renewal, hnew.followOn, hnumber,
      hothers⟩
  · have hlost' : (s.works.frostOpening z && s.works.valveNodeReady z
        && (s.works.closedValve z).fits z) ≠ true := by
      rw [valveNodeReady_of hnode, closedValve_fits]
      rcases hlost with h | h | h
      · simp [h]
      · simp [h]
      · simp [Nat.not_le_of_lt h]
    have hdone := (takeAck_done hz hp hc hn hr).trans (cmdDone_followOn hk hfollow)
    rw [followOnAcknowledged_eq, if_neg hlost'] at hdone
    exact hexec hdone
  · exact hexec ((takeAck_failed hz hp hc hn hr).trans (cmdFailed_renewal hk hren q))
  · refine hexec ((takeAck_failed hz hp hc hn hr).trans ((cmdFailed_close hk q).trans ?_))
    rw [← hn]
    exact closeCmdFailed_eq hnode c.number q
  · have hfails := openCmdFailed_fails hopens.idle.1 hopens.found hopens.run hopens.state hopens.valve q
    have hacked := hexec ((takeAck_failed hz hp hc hn hr).trans (cmdFailed_open hk hren q))
    generalize s.works.openCmdFailed z q = v at hfails hacked
    exact ⟨_, hacked, rfl, openFailed_of_fails hfails rfl rfl⟩

end Sys2Proof.Machine
end

section
/-! PROOF. Runs whose entries close together: the flow-confirm deadline (O41). -/

namespace Sys2Proof.Machine

open Works State

variable {s t : State} {w v : Works} {z y : ZoneIx} {i j : SlotIx} {r : Run} {x : RunEntry} {c : EntryCause}

/-- An entry that closes already is sent to CLOSING as it stands. -/
theorem RunEntry.sentClosing_twice (e : RunEntry) (time demand : Nat)
    (c : EntryCause) :
    (e.sentClosing time demand c).sentClosing time demand c = e.sentClosing time demand c := by
  rw [RunEntry.sentClosing_eq (e.sentClosing time demand c)]
  rw [RunEntry.sentClosing_eq e]
  rfl

theorem RunEntry.zone_sentClosing (e : RunEntry) (time demand : Nat) (c : EntryCause) :
    (e.sentClosing time demand c).zone = e.zone := by rw [RunEntry.sentClosing_eq]

namespace Run

/-- The entries of the zones listed sent to CLOSING, each credited at its zone's demand. -/
def sentAll (r : Run) (zs : List ZoneIx) (time : Nat) (demand : ZoneIx → Nat) (c : EntryCause) : Run :=
  { r with entries := r.entries.map fun x =>
      if x.zone ∈ zs then x.sentClosing time (demand x.zone) c else x }

/-- No entry of a zone that was sent to CLOSING waits. -/
theorem mem_waiting_sentAll {zs : List ZoneIx} {time : Nat} {demand : ZoneIx → Nat} :
    z ∈ (r.sentAll zs time demand c).zonesIn .waiting ↔ z ∉ zs ∧ z ∈ r.zonesIn .waiting := by
  simp only [mem_zonesIn, sentAll, List.any_map, List.any_eq_true, Function.comp, Bool.and_eq_true,
    beq_iff_eq]
  constructor
  · rintro ⟨y, hy, hyz, hys⟩
    split at hyz
    · rw [if_pos ‹_›] at hys
      exact nomatch hys
    · rw [if_neg ‹_›] at hys
      exact ⟨hyz ▸ ‹_›, y, hy, hyz, hys⟩
  · rintro ⟨hnot, y, hy, hyz, hys⟩
    have hy' : y.zone ∉ zs := hyz ▸ hnot
    exact ⟨y, hy, by rw [if_neg hy']; exact hyz, by rw [if_neg hy']; exact hys⟩

end Run

/-! ### The valve of an entry that closes -/

/-- The valve once it has been asked to close (R156). -/
def Zone.askedToClose (x : Zone) : ValveState :=
  match x.valve, x.cmd with
  | .opened, _ => .closing
  | .opening, some c => if c.attempts = 0 then .closed else .closing
  | .opening, none => .closing
  | v, _ => v

theorem Zone.askedToClose_congr {a b : Zone} (hv : a.valve = b.valve) (hc : a.cmd = b.cmd) :
    a.askedToClose = b.askedToClose := by
  unfold askedToClose
  rw [hv, hc]

theorem Zone.askedToClose_settled {x : Zone} (h : x.valve ≠ .opened ∧ x.valve ≠ .opening) :
    x.askedToClose = x.valve := by
  unfold askedToClose
  split
  · exact absurd ‹_› h.1
  · exact absurd ‹_› h.2
  · exact absurd ‹_› h.2
  · rfl

/-- A valve asked to close neither opens nor stands open. -/
theorem Zone.askedToClose_ne (x : Zone) : x.askedToClose ≠ .opened ∧ x.askedToClose ≠ .opening := by
  unfold askedToClose
  split
  · decide
  · split <;> decide
  · decide
  · rename_i v c hopened hsome hnone
    refine ⟨hopened, fun h => ?_⟩
    cases hc : x.cmd with
    | none => exact hnone h hc
    | some c => exact hsome c h hc

namespace Works

theorem valve_closeRequest_self (w : Works) (z : ZoneIx) :
    ((w.closeRequest z).zone z).valve = (w.zone z).askedToClose := by
  unfold closeRequest Zone.askedToClose
  split
  · rename_i hv
    rw [hv]
    exact (zone_closeNow_self w z).1
  · rename_i c hv hc
    rw [hv, hc]
    dsimp only
    split
    · exact (zone_setValve_valve (w.setCmd z none) z z .closed).trans (if_pos rfl)
    · exact (zone_closeNow_self w z).1
  · rename_i hv hc
    rw [hv, hc]
    exact (zone_closeNow_self w z).1
  · rename_i hv hc
    rw [hv, hc]
    exact (zone_setCmd_valve w z z _).trans hv
  · rename_i hv hc
    rw [hv]
  · rename_i hv
    rw [hv]
  · rename_i hv
    rw [hv]

theorem zone_closeRequest_ne (w : Works) (h : y ≠ z) : (w.closeRequest z).zone y = w.zone y := by
  unfold closeRequest
  split
  · exact zone_closeNow_ne w h
  · split
    · exact (zone_setValve_ne (w.setCmd z none) .closed h).trans (zone_setCmd_ne w none h)
    · exact zone_closeNow_ne w h
  · exact zone_closeNow_ne w h
  · exact zone_setCmd_ne w _ h
  · rfl
  · rfl
  · rfl

theorem valve_sendClosing_self (w : Works) (i : SlotIx) (c : EntryCause) (z : ZoneIx) :
    ((w.sendClosing i c z).zone z).valve = (w.zone z).askedToClose := by
  have hput := putEntry_calm (q := true) (k := true) w i z fun e => e.sentClosing w.time (w.demandOf z) c
  rw [sendClosing_eq, valve_closeRequest_self]
  exact Zone.askedToClose_congr (hput.valve rfl z) (hput.cmd rfl z)

theorem zone_sendClosing_ne (w : Works) (i : SlotIx) (c : EntryCause) (h : y ≠ z) :
    (w.sendClosing i c z).zone y = w.zone y := by
  rw [sendClosing_eq, zone_closeRequest_ne _ h, zone_putEntry_ne _ _ _ h]

theorem sendClosing_stirs (w : Works) (i : SlotIx) (c : EntryCause) (z : ZoneIx) :
    Calm false false w (w.sendClosing i c z) := (putEntry_calm w i z _).trans (closeRequest_stirs _ z)

/-! ### Several entries at once -/

/-- Entries of several zones sent to CLOSING in turn. -/
def sendAll (w : Works) (i : SlotIx) (c : EntryCause) (zs : List ZoneIx) : Works :=
  zs.foldl (fun w z => w.sendClosing i c z) w

theorem sendAll_stirs (w : Works) (i : SlotIx) (c : EntryCause) (zs : List ZoneIx) :
    Calm false false w (w.sendAll i c zs) := Calm.foldl zs w fun w z => sendClosing_stirs w i c z

theorem run_sendAll_ne (w : Works) (c : EntryCause) (zs : List ZoneIx) (h : j ≠ i) :
    (w.sendAll i c zs).run j = w.run j := by
  induction zs generalizing w with
  | nil => rfl
  | cons z zs ih => exact (ih _).trans (run_sendClosing_ne w c z h)

theorem run_foldl_sendClosing (zs : List ZoneIx) (w : Works) (i : SlotIx) (c : EntryCause) :
    (w.sendAll i c zs).run i = (w.run i).map fun r =>
      zs.foldl (fun r z => r.modEntry z fun e => e.sentClosing w.time (w.demandOf z) c) r := by
  induction zs generalizing w with
  | nil => simp [sendAll]
  | cons z zs ih =>
    have hcalm := sendClosing_stirs w i c z
    refine (ih (w.sendClosing i c z)).trans ?_
    rw [run_sendClosing_self, hcalm.time, Option.map_map,
      show (w.sendClosing i c z).demandOf = w.demandOf from funext hcalm.demandOf]
    rfl

/-- The entries of the zones listed go to CLOSING, credited. -/
theorem run_sendAll (h : w.run i = some r) (c : EntryCause) (zs : List ZoneIx) :
    (w.sendAll i c zs).run i = some (r.sentAll zs w.time w.demandOf c) := by
  rw [run_foldl_sendClosing, h]
  exact congrArg some (Run.foldl_modEntry zs r (fun z e => e.sentClosing w.time (w.demandOf z) c)
    (fun z e => e.zone_sentClosing _ _ _) fun z e => e.sentClosing_twice _ _ _)

/-- A valve that stands neither OPEN nor OPENING stands still. -/
theorem valve_sendAll_settled (zs : List ZoneIx) (w : Works)
    (h : (w.zone z).valve ≠ .opened ∧ (w.zone z).valve ≠ .opening) :
    ((w.sendAll i c zs).zone z).valve = (w.zone z).valve := by
  induction zs generalizing w with
  | nil => rfl
  | cons y zs ih =>
    have hstep : ((w.sendClosing i c y).zone z).valve = (w.zone z).valve := by
      by_cases hy : z = y
      · subst hy
        rw [valve_sendClosing_self, Zone.askedToClose_settled h]
      · rw [zone_sendClosing_ne _ _ _ hy]
    exact (ih _ (by rw [hstep]; exact h)).trans hstep

/-- Each valve of the zones listed is asked to close. -/
theorem valve_sendAll {zs : List ZoneIx} (hz : z ∈ zs) (w : Works) :
    ((w.sendAll i c zs).zone z).valve = (w.zone z).askedToClose := by
  induction zs generalizing w with
  | nil => exact absurd hz List.not_mem_nil
  | cons y zs ih =>
    by_cases hy : z = y
    · subst hy
      have hself := valve_sendClosing_self w i c z
      refine (valve_sendAll_settled zs (w.sendClosing i c z) ?_).trans hself
      rw [hself]
      exact Zone.askedToClose_ne _
    · refine (ih ((List.mem_cons.mp hz).resolve_left hy) (w.sendClosing i c y)).trans ?_
      rw [zone_sendClosing_ne _ _ _ hy]

/-! ### The entries that are OPEN or OPENING -/

end Works

/-- Zones of a run's OPEN and OPENING entries, in join order. -/
def Run.moving (r : Run) : List ZoneIx :=
  (r.entries.filter fun e => e.state == .opened || e.state == .opening).map RunEntry.zone

theorem Run.mem_moving {r : Run} :
    z ∈ r.moving ↔
      r.entries.any (fun y => y.zone == z && (y.state == .opened || y.state == .opening)) = true := by
  simp only [moving, List.mem_map, List.mem_filter, List.any_eq_true, Bool.and_eq_true, beq_iff_eq]
  constructor
  · rintro ⟨x, ⟨hx, hs⟩, hz⟩
    exact ⟨x, hx, hz, hs⟩
  · rintro ⟨x, hx, hz, hs⟩
    exact ⟨x, ⟨hx, hs⟩, hz⟩

/-- The entries of a faulted run: those that moved close, those that waited are withdrawn (R144). -/
def Run.faultEnded (r : Run) (w : Works) : List RunEntry :=
  r.entries.map fun x =>
    if x.zone ∈ r.moving then x.sentClosing w.time (w.demandOf x.zone) (.fault .flow)
    else if x.zone ∈ r.zonesIn .waiting then x.become .withdrawn else x

/-- A faulted run: CLOSING while an entry is active, FAULTED with none left (R131, R144). -/
def Run.faulted (r : Run) (es : List RunEntry) : Run :=
  { r with
    entries := es, gatherDeadline := none, flowDeadline := none,
    state := if es.any (fun x => x.state.active) then .closing else .faulted,
    closeCause := if es.any (fun x => x.state.active) then some .fault else none }

namespace Works

theorem foldl_sendClosing_eq (w : Works) (i : SlotIx) (c : EntryCause) (es : List RunEntry) :
    es.foldl (fun w e => w.sendClosing i c e.zone) w = w.sendAll i c (es.map RunEntry.zone) := by
  rw [sendAll, List.foldl_map]

theorem closeAll_eq (h : w.run i = some r) (c : EntryCause) : w.closeAll i c = w.sendAll i c r.moving := by
  unfold closeAll
  rw [h]
  exact foldl_sendClosing_eq w i c _

theorem run_closed_withdrawn (h : w.run i = some r) :
    ((w.closeAll i (.fault .flow)).withdrawWaiting i).run i = some { r with entries := r.faultEnded w } := by
  rw [closeAll_eq h, run_withdrawWaiting (run_sendAll h (.fault .flow) r.moving)]
  simp only [Run.mem_waiting_sentAll]
  simp only [Run.sentAll, List.map_map]
  refine congrArg (fun es => some { r with entries := es }) (List.map_congr_left fun x _ => ?_)
  by_cases hmoves : x.zone ∈ r.moving
  · simp [hmoves, RunEntry.zone_sentClosing]
  · simp [hmoves]

theorem judgeIrrigation_closing (hr : w.run i = some r) (hs : r.state = .closing)
    (hc : r.closeCause = some .fault) :
    w.judgeIrrigation i = if r.hasActive then w else w.setRunState i .faulted none := by
  have hending : r.ending = .faulted := by
    unfold Run.ending
    rw [hs, hc]
  unfold judgeIrrigation
  rw [hr]
  dsimp only
  rw [hs, hending]

/-- A flowing run whose flow was never confirmed (R144). -/
theorem run_faultRun (h : w.run i = some r) (hs : r.state = .flowing) :
    (w.faultRun i).run i = some (r.faulted (r.faultEnded w)) := by
  have hended := run_closed_withdrawn h
  have hclosing := run_setRunState hended (new := .closing)
    (by rw [show Run.state _ = r.state from rfl, hs]; decide) (by decide) (some .fault)
  unfold faultRun
  dsimp only
  generalize ((w.closeAll i (.fault .flow)).withdrawWaiting i).setRunState i .closing (some .fault) = u at *
  rw [judgeIrrigation_closing hclosing rfl rfl]
  cases ha : (r.faultEnded w).any fun x => x.state.active with
  | true =>
    refine (congrArg (Works.run · i) (if_pos ha)).trans (hclosing.trans ?_)
    simp [Run.faulted, Run.inState, ha]
  | false =>
    have hnone := run_setRunState hclosing (new := .faulted) (by show RunState.closing ≠ .faulted; decide)
      (by decide) none
    refine (congrArg (Works.run · i) (if_neg ?_)).trans (hnone.trans ?_)
    · exact fun h => absurd (h.symm.trans ha) (by decide)
    · simp [Run.faulted, Run.inState, ha]

theorem valve_faultRun (h : w.run i = some r) (hz : z ∈ r.moving) :
    ((w.faultRun i).zone z).valve = (w.zone z).askedToClose := by
  have hwithdrawn := withdrawWaiting_calm (q := true) (k := true) (w.closeAll i (.fault .flow)) i
  unfold faultRun
  dsimp only
  rw [(judgeIrrigation_restates _ i).zone z, (setRunState_restates _ i _ _).zone z, hwithdrawn.valve rfl,
    closeAll_eq h, valve_sendAll hz]

/-! ### The flow-confirm deadline -/

theorem flowConfirmDeadline_due {d : Nat} (hr : w.run i = some r) (hd : r.flowDeadline = some d)
    (hle : d ≤ w.time) : w.flowConfirmDeadline i = w.flowExpired i r := by
  unfold flowConfirmDeadline
  rw [hr]
  dsimp only
  rw [hd]
  exact if_pos (reached_of_le hle)

theorem flowConfirmDeadline_early {d : Nat} (hr : w.run i = some r) (hd : r.flowDeadline = some d)
    (hlt : w.time < d) : w.flowConfirmDeadline i = w := by
  unfold flowConfirmDeadline
  rw [hr]
  dsimp only
  rw [hd]
  exact if_neg (by rw [not_reached_of_lt hlt]; exact Bool.false_ne_true)

/-- FLOW_FAULT is latched and told, and the deadline dropped (R144). -/
def flowFaulted (w : Works) (i : SlotIx) (r : Run) : Works :=
  (w.flowFaultNotice i r).modRun i fun x => { x with flowDeadline := none }

theorem flowExpired_eq (w : Works) (i : SlotIx) (r : Run) :
    w.flowExpired i r = (w.flowFaulted i r).rdpEvent fun v => if i = 0 then v else v.faultRun i := rfl

theorem flowExpired_irrigation (h : i ≠ 0) (w : Works) (r : Run) :
    w.flowExpired i r = (w.flowFaulted i r).rdpEvent fun v => v.faultRun i := by
  rw [flowExpired_eq]
  simp only [if_neg h]

theorem flowFaulted_calm {q k : Bool} (w : Works) (i : SlotIx) (r : Run) :
    Calm q k w.latchFlowFault (w.flowFaulted i r) :=
  (notice_calm w.latchFlowFault _ _ _).trans (modRun_calm _ i _)

/-- The frost run flows on (R144). -/
theorem flowExpired_frost (hidle : w.Idle) (r : Run) : w.flowExpired 0 r = (w.flowFaulted 0 r).tellLine := by
  have hcalm := flowFaulted_calm (q := true) (k := true) w 0 r
  rw [flowExpired_eq]
  simp only [if_true]
  exact rdpEvent_of_idle (f := fun v => v) (hcalm.idle hidle)

theorem zones_flowFaulted (w : Works) (i : SlotIx) (r : Run) : (w.flowFaulted i r).zones = w.zones :=
  zones_notice w.latchFlowFault _ _ _

theorem runs_flowFaulted (w : Works) (i : SlotIx) (r : Run) :
    (w.flowFaulted i r).runs = (w.modRun i fun x => { x with flowDeadline := none }).runs := by
  have hruns : (w.flowFaultNotice i r).runs = w.runs := runs_notice w.latchFlowFault _ _ _
  rw [flowFaulted, runs_modRun, hruns, runs_modRun]

end Works

/-- Settles O41. -/
theorem flowConfirmDeadlineFaultsRun : Obligations.FlowConfirmDeadlineFaultsRun := by
  intro s i r d hr hd
  have heffect : s.effect (.flowConfirmDeadline i.val) = s.onWorks fun w => w.flowConfirmDeadline i :=
    congrArg (fun o => s.onRow o Works.flowConfirmDeadline) (slotIx?_val i)
  refine ⟨fun hle hi hidle => ?_, fun hle hi => ?_,
    fun hi hs ended hended => ⟨?_, fun x hx hmoves hvalve => ?_⟩,
    fun hlt => exec_of_works heffect (flowConfirmDeadline_early hr hd hlt)⟩
  · subst hi
    have hexec := exec_of_works heffect
      ((flowConfirmDeadline_due hr hd hle).trans (flowExpired_frost hidle.1 r))
    have honly := tellLine_onlyLine (s.works.flowFaulted 0 r)
    have hlatches := ((flowFaulted_calm (q := true) (k := true) s.works 0 r).trans honly.calm).latches
    have hzones := honly.zones.trans (zones_flowFaulted s.works 0 r)
    have hruns := honly.runs.trans (runs_flowFaulted s.works 0 r)
    generalize (s.works.flowFaulted 0 r).tellLine = v at hexec hlatches hzones hruns
    have hrun (j : SlotIx) : v.run j = (s.works.modRun 0 fun x => { x with flowDeadline := none }).run j := by
      rw [run, hruns, run]
    refine ⟨_, hexec, hlatches, (hrun 0).trans ?_, hzones, fun j hj => (hrun j).trans ?_⟩
    · rw [run_modRun_self, hr]
      rfl
    · rw [run_modRun, if_neg hj]
  · exact exec_of_works heffect ((flowConfirmDeadline_due hr hd hle).trans (flowExpired_irrigation hi _ r))
  · have hentries : ended = r.faultEnded s.works := by
      rw [hended]
      refine List.map_congr_left fun x _ => ?_
      simp only [Run.mem_moving, Run.mem_zonesIn, RunEntry.sentClosing_eq]
      rfl
    rw [run_faultRun hr hs, hentries]
    rfl
  · have hmoving : x.zone ∈ r.moving :=
      List.mem_map_of_mem (List.mem_filter.mpr ⟨hx, by rcases hmoves with h | h <;> rw [h] <;> rfl⟩)
    rw [valve_faultRun hr hmoving]
    unfold Zone.askedToClose
    rw [hvalve]

end Sys2Proof.Machine
end

section
/-! PROOF. Admission and suspension (R123, R125, R132, R133), the first six parts of O60. -/

namespace Sys2Proof.Machine

open Works State

variable {w u v : Works} {z y : ZoneIx} {i j : SlotIx} {r : Run} {x : RunEntry} {id : NodeId}

theorem Run.entry?_modEntry_ne {g : RunEntry → RunEntry} (hg : ∀ e, (g e).zone = e.zone) (h : z ≠ y) :
    (r.modEntry y g).entry? z = r.entry? z := by
  have hpred : (fun e : RunEntry => e.zone == z) ∘ (fun e => if e.zone = y then g e else e) =
      fun e => e.zone == z := by
    funext e
    by_cases he : e.zone = y
    · simp [he, hg]
    · simp [he]
  unfold Run.entry?
  rw [Run.modEntry, List.find?_map, hpred]
  cases hf : r.entries.find? fun e => e.zone == z with
  | none => rfl
  | some e =>
    have he : e.zone ≠ y := fun hy => h ((by simpa using List.find?_some hf : e.zone = z).symm.trans hy)
    simp [he]

theorem Run.frostState_live (h : r.has .opening = true) : r.frostState.live = true := by
  unfold Run.frostState
  split
  · rfl
  · rfl

/-- The run admitted whole (R125). -/
def Run.admitted (r : Run) : Run :=
  { r with
    state := .opening, closeCause := none, gatherDeadline := none, flowDeadline := none,
    entries := r.entries.map fun x => if x.zone ∈ r.zonesIn .waiting then x.become .opening else x }

namespace Works

/-! ### Who may be admitted -/

theorem nodeReady_iff (w : Works) (id : NodeId) :
    w.nodeReady id = true ↔
      ∃ e, (w.entry e).id = id ∧ ((w.entry e).state = .active ∨ (w.entry e).state = .silent) := by
  simp only [nodeReady, List.any_eq_true, Vector.mem_toList_iff, Vector.mem_iff_getElem, Bool.and_eq_true,
    Bool.or_eq_true, beq_iff_eq]
  constructor
  · rintro ⟨n, ⟨e, he, rfl⟩, hstate, hid⟩
    exact ⟨⟨e, he⟩, hid, hstate⟩
  · rintro ⟨e, hid, hstate⟩
    exact ⟨_, ⟨e.val, e.isLt, rfl⟩, hstate, hid⟩

theorem admissible_iff (w : Works) (z : ZoneIx) :
    w.admissible z = true ↔ (w.cfg z).inUse = true ∧ (w.zone z).valve = .closed
      ∧ ∃ id e, (w.cfg z).valveNode = some id ∧ (w.entry e).id = id
        ∧ ((w.entry e).state = .active ∨ (w.entry e).state = .silent) := by
  unfold admissible
  cases hnode : (w.cfg z).valveNode with
  | none => simp
  | some id =>
    simp only [Bool.and_eq_true, beq_iff_eq, nodeReady_iff, Option.some.injEq, and_assoc,
      exists_and_left, exists_eq_left']

/-! ### One admission -/

@[simp] theorem line_syncRunSlot (w : Works) (z : ZoneIx) : (w.syncRunSlot z).line = w.line := by
  unfold syncRunSlot
  dsimp only
  split
  · rfl
  · exact line_touch _ z

@[simp] theorem line_putEntry (w : Works) (i : SlotIx) (z : ZoneIx) (g : RunEntry → RunEntry) :
    (w.putEntry i z g).line = w.line := line_syncRunSlot _ z

theorem lineSends_iff (w : Works) :
    w.lineSends = true ↔ w.line.state = .ready ∨ w.line.state = .running := by
  simp [lineSends]

theorem run_admitEntry_self (w : Works) (i : SlotIx) (z : ZoneIx) :
    (w.admitEntry i z).run i = (w.run i).map fun r => r.modEntry z fun e => e.become .opening := by
  rw [admitEntry, run, runs_openRequest]
  exact run_putEntry_self w i z _

theorem run_admitEntry_ne (w : Works) (z : ZoneIx) (h : j ≠ i) : (w.admitEntry i z).run j = w.run j := by
  rw [admitEntry, run, runs_openRequest]
  exact run_putEntry_ne w z _ h

/-- The valve of an admitted entry is OPENING under a new OPEN, sent at once where the line allows (R123,
R151). -/
theorem zone_admitEntry_self (w : Works) (i : SlotIx) (z : ZoneIx) :
    ((w.admitEntry i z).zone z).valve = .opening
      ∧ ∃ k, ((w.admitEntry i z).zone z).cmd = some k ∧ k.kind = .openValve ∧ k.renewal = false
        ∧ k.number = w.cmdNumber
        ∧ k.attempts = if w.line.state = .ready ∨ w.line.state = .running then 1 else 0 := by
  have hput := putEntry_calm (q := true) (k := true) w i z fun e => e.become .opening
  obtain ⟨hvalve, k, hk, hnew⟩ := zone_openRequest_self (w.putEntry i z fun e => e.become .opening) z
  have hline : ((w.putEntry i z fun e => e.become .opening).setValve z .opening).lineSends = w.lineSends := by
    unfold lineSends
    rw [line_setValve, line_putEntry]
  refine ⟨hvalve, k, hk, hnew.kind, hnew.renewal, ?_, ?_⟩
  · rw [hnew.number, cmdNumber_setValve, hput.cmdNumber rfl]
  · rw [hnew.attempts, hline]
    refine if_congr ⟨fun h => ?_, fun h => Or.inr ((lineSends_iff w).mpr h)⟩ rfl rfl
    exact (lineSends_iff w).mp (h.resolve_left (by decide))

/-! ### Slots by age -/

theorem insertByAge_perm (age : SlotIx → Nat) (s : SlotIx) (l : List SlotIx) :
    (insertByAge age s l).Perm (s :: l) := by
  induction l with
  | nil => exact List.Perm.refl _
  | cons t ts ih =>
    unfold insertByAge
    split
    · exact List.Perm.refl _
    · exact (ih.cons t).trans (List.Perm.swap s t ts)

/-- The irrigation slots whose run meets p, in slot order. -/
def slotsWith (w : Works) (p : Run → Bool) : List SlotIx :=
  irrigationSlots.filter fun s =>
    match w.run s with
    | some r => p r
    | none => false

theorem runsByAge_perm (w : Works) (p : Run → Bool) : (w.runsByAge p).Perm (w.slotsWith p) := by
  show ((w.slotsWith p).foldr (insertByAge w.serialOf) []).Perm (w.slotsWith p)
  induction w.slotsWith p with
  | nil => exact List.Perm.refl _
  | cons s l ih => exact (insertByAge_perm _ s _).trans (ih.cons s)

theorem nodup_runsByAge (w : Works) (p : Run → Bool) : (w.runsByAge p).Nodup :=
  (runsByAge_perm w p).nodup_iff.mpr (((List.nodup_finRange 12).filter _).filter _)

theorem of_mem_runsByAge {p : Run → Bool} (h : j ∈ w.runsByAge p) :
    j ≠ 0 ∧ ∃ r, w.run j = some r ∧ p r = true := by
  obtain ⟨hslot, hp⟩ := List.mem_filter.mp ((runsByAge_perm w p).mem_iff.mp h)
  refine ⟨by simpa [irrigationSlots] using hslot, ?_⟩
  split at hp
  · exact ⟨_, ‹_›, hp⟩
  · exact nomatch hp

/-! ### Suspension -/

theorem suspendRun_eq (h : w.run i = some r) :
    w.suspendRun i = ((w.setRunState i .suspending none).sendAll i .suspend r.moving).judgeIrrigation i := by
  unfold suspendRun
  rw [h]
  dsimp only
  rw [foldl_sendClosing_eq]
  rfl

theorem run_suspendRun_ne (w : Works) (h : j ≠ i) : (w.suspendRun i).run j = w.run j := by
  cases hr : w.run i with
  | none =>
    unfold suspendRun
    rw [hr]
  | some r =>
    rw [suspendRun_eq hr, (judgeIrrigation_restates _ i).others j h, run_sendAll_ne _ _ _ h,
      (setRunState_restates w i _ _).others j h]

theorem run_suspendRuns_ne (need : Nat) {ss : List SlotIx} (h : j ∉ ss) (w : Works) (e n : Nat) :
    (suspendRuns need ss w e n).1.run j = w.run j := by
  induction ss generalizing w e n with
  | nil => rfl
  | cons s ss ih =>
    obtain ⟨hs, hss⟩ := not_or.mp (mt List.mem_cons.mpr h)
    unfold suspendRuns
    split
    · rfl
    · exact (ih hss _ _ _).trans (run_suspendRun_ne w hs)

/-- A suspended run: its OPEN and OPENING entries close, credited (R133). -/
theorem run_suspendRun (h : w.run i = some r) (hs : r.state = .opening ∨ r.state = .flowing)
    (hm : r.has .opened = true ∨ r.has .opening = true) :
    (w.suspendRun i).run i = some
      (({ r with state := .suspending, closeCause := none, gatherDeadline := none, flowDeadline := none }
        : Run).sentAll r.moving w.time w.demandOf .suspend) := by
  have hset := run_setRunState h (new := .suspending) (by rcases hs with hs | hs <;> rw [hs] <;> decide)
    (by decide) none
  have hcalm := setRunState_calm (q := true) (k := true) w i .suspending none
  have hsent := run_sendAll hset .suspend r.moving
  rw [hcalm.time, show (w.setRunState i .suspending none).demandOf = w.demandOf from funext hcalm.demandOf]
    at hsent
  have hclosing :
      Run.has ((r.inState .suspending none).sentAll r.moving w.time w.demandOf .suspend) .closing = true := by
    obtain ⟨x, hx, hxs⟩ : ∃ x ∈ r.entries, x.state = .opened ∨ x.state = .opening := by
      rcases hm with hm | hm
      · obtain ⟨x, hx, hxs⟩ := List.any_eq_true.mp hm
        exact ⟨x, hx, Or.inl (beq_iff_eq.mp hxs)⟩
      · obtain ⟨x, hx, hxs⟩ := List.any_eq_true.mp hm
        exact ⟨x, hx, Or.inr (beq_iff_eq.mp hxs)⟩
    have hmoves : x.zone ∈ r.moving :=
      List.mem_map_of_mem (List.mem_filter.mpr ⟨hx, by rcases hxs with h | h <;> rw [h] <;> rfl⟩)
    refine List.any_eq_true.mpr ⟨_, List.mem_map_of_mem hx, ?_⟩
    rw [if_pos hmoves, RunEntry.sentClosing_eq]
    rfl
  rw [suspendRun_eq h]
  have hjudged : ((w.setRunState i .suspending none).sendAll i .suspend r.moving).judgeIrrigation i =
      (w.setRunState i .suspending none).sendAll i .suspend r.moving := by
    unfold judgeIrrigation
    rw [hsent]
    exact if_pos hclosing
  rw [hjudged, hsent]
  rfl

theorem valve_suspendRun (h : w.run i = some r) (hz : z ∈ r.moving) :
    ((w.suspendRun i).zone z).valve = (w.zone z).askedToClose := by
  rw [suspendRun_eq h, (judgeIrrigation_restates _ i).zone z, valve_sendAll hz,
    (setRunState_restates w i _ _).zone z]

/-! ### The frost entries of a pass -/

/-- The zone's frost entry is OPENING in a live frost run. -/
def FrostOpens (w : Works) (z : ZoneIx) : Prop :=
  ∃ r x, w.run 0 = some r ∧ r.live = true ∧ r.entry? z = some x ∧ x.state = .opening

theorem FrostOpens.of_run (h : w.FrostOpens z) (hr : v.run 0 = w.run 0) : v.FrostOpens z := by
  obtain ⟨r, x, hrun, hlive, he, hs⟩ := h
  exact ⟨r, x, hr.trans hrun, hlive, he, hs⟩

theorem FrostOpens.entry (h : w.FrostOpens z) :
    (w.frostEntry? z).map RunEntry.state = some .opening := by
  obtain ⟨r, x, hrun, hlive, he, hs⟩ := h
  rw [frostEntry?_of (frostRun?_of_run hrun hlive), he]
  exact congrArg some hs

/-- A change of an entry that leaves an OPENING entry OPENING. -/
theorem FrostOpens.putEntry (h : w.FrostOpens z) (y : ZoneIx) {g : RunEntry → RunEntry}
    (hzone : ∀ e, (g e).zone = e.zone) (hs : ∀ e, e.state = .opening → (g e).state = .opening) :
    (w.putEntry 0 y g).FrostOpens z := by
  obtain ⟨r, x, hrun, hlive, he, hx⟩ := h
  have hput := (run_putEntry_self w 0 y g).trans (congrArg _ hrun)
  by_cases hy : z = y
  · subst hy
    exact ⟨_, g x, hput, hlive, Run.entry?_modEntry hzone he, hs x hx⟩
  · exact ⟨_, x, hput, hlive, (Run.entry?_modEntry_ne hzone hy).trans he, hx⟩

theorem FrostOpens.judgeFrost (h : w.FrostOpens z) : w.judgeFrost.FrostOpens z := by
  obtain ⟨r, x, hrun, hlive, he, hx⟩ := h
  obtain ⟨r', hr', hentries, hstate⟩ := state_setRunState hrun r.frostState none
  rw [judgeFrost_of (frostRun?_of_run hrun hlive)]
  refine ⟨r', x, hr', ?_, ?_, hx⟩
  · rw [Run.live, hstate]
    exact Run.frostState_live (Run.has_of_entry? he hx)
  · unfold Run.entry? at he ⊢
    rw [hentries]
    exact he

theorem FrostOpens.admitFrost (h : w.FrostOpens z) (y : ZoneIx) : (w.admitEntry 0 y).FrostOpens z := by
  refine (h.putEntry y (g := fun e => e.become .opening) (fun _ => rfl) fun _ _ => rfl).of_run ?_
  rw [admitEntry, run, runs_openRequest, run]

theorem FrostOpens.frostShort (h : w.FrostOpens z) (y : ZoneIx) (e n : Nat) :
    (w.frostShort y e n).FrostOpens z := by
  unfold Works.frostShort
  split
  · split
    · exact h
    · have hput := h.putEntry y (g := fun e => { e with shortNoted := true }) (fun _ => rfl) fun _ hs => hs
      refine hput.of_run ?_
      rw [run, runs_notice, run]
  · exact h

theorem FrostOpens.suspensionJudgment (h : w.FrostOpens z) (y : ZoneIx) :
    (w.suspensionJudgment y).FrostOpens z := by
  have hslots : (0 : SlotIx) ∉ (w.runsByAge fun r => r.state == .opening || r.state == .flowing).reverse :=
    fun hmem => (of_mem_runsByAge (List.mem_reverse.mp hmem)).1 rfl
  have hrun := run_suspendRuns_ne (w.demandOf y) hslots w (w.freeCapacity + w.closingDemand) 0
  unfold Works.suspensionJudgment
  dsimp only
  split
  · exact (h.of_run hrun).frostShort y _ _
  · exact h.of_run hrun

theorem FrostOpens.passFrost (h : w.FrostOpens z) (zs : List ZoneIx) : (passFrost zs w).1.FrostOpens z := by
  induction zs generalizing w with
  | nil => exact h
  | cons y zs ih =>
    unfold Works.passFrost
    split
    · exact ih h
    · split
      · exact ih (h.frostShort y _ _)
      · split
        · exact ih (h.admitFrost y).judgeFrost
        · exact h.suspensionJudgment y

theorem run_foldl_admitEntry_ne (zs : List ZoneIx) (w : Works) (h : j ≠ i) :
    (zs.foldl (fun w z => w.admitEntry i z) w).run j = w.run j := by
  induction zs generalizing w with
  | nil => rfl
  | cons z zs ih => exact (ih _).trans (run_admitEntry_ne w z h)

theorem run_admitRun_ne (w : Works) (h : j ≠ i) : (w.admitRun i).run j = w.run j := by
  rw [admitRun, (setRunState_restates _ i _ _).others j h, run_foldl_admitEntry_ne _ w h]

theorem run_passReadmit_ne {l : List (SlotIx × ZoneIx)} (h : ∀ p ∈ l, p.1 ≠ j) (w : Works) :
    (passReadmit l w).1.run j = w.run j := by
  induction l generalizing w with
  | nil => rfl
  | cons p l ih =>
    obtain ⟨s, z⟩ := p
    have hs : j ≠ s := (h (s, z) List.mem_cons_self).symm
    have hl : ∀ p ∈ l, p.1 ≠ j := fun p hp => h p (List.mem_cons_of_mem _ hp)
    unfold passReadmit
    split
    · exact ih hl w
    · split
      · rw [ih hl, (judgeIrrigation_restates _ s).others j hs, run_admitEntry_ne w z hs]
      · rfl

theorem run_passSuspended_ne {l : List SlotIx} (h : j ∉ l) (w : Works) :
    (passSuspended l w).1.run j = w.run j := by
  induction l generalizing w with
  | nil => rfl
  | cons s l ih =>
    obtain ⟨hs, hl⟩ := not_or.mp (mt List.mem_cons.mpr h)
    unfold passSuspended
    split
    · exact ih hl w
    · split
      · exact (ih hl _).trans (run_admitRun_ne w hs)
      · rfl

theorem run_passQueued_ne {l : List SlotIx} (h : j ∉ l) (w : Works) : (passQueued l w).run j = w.run j := by
  induction l generalizing w with
  | nil => rfl
  | cons s l ih =>
    obtain ⟨hs, hl⟩ := not_or.mp (mt List.mem_cons.mpr h)
    unfold passQueued
    split
    · exact (ih hl _).trans (run_admitRun_ne w hs)
    · rfl

/-- The frost entries that wait, in join order. -/
def frostWaiting (w : Works) : List ZoneIx :=
  match w.frostRun? with
  | some r => r.zonesIn .waiting
  | none => []

/-- The irrigation entries that wait in a run in OPENING or FLOWING. -/
def readmissions (w : Works) : List (SlotIx × ZoneIx) :=
  (w.runsByAge fun r => r.state == .opening || r.state == .flowing).flatMap fun s =>
    (w.waitingZones s).map fun z => (s, z)

/-- The pass after the frost entries. -/
def passIrrigation (w : Works) : Works :=
  match passReadmit w.readmissions w with
  | (w2, false) => w2
  | (w2, true) =>
    match passSuspended (w2.runsByAge fun r => r.state == .suspended) w2 with
    | (w3, false) => w3
    | (w3, true) => passQueued (w3.runsByAge fun r => r.state == .queued) w3

theorem admissionPass_eq (w : Works) :
    w.admissionPass = match passFrost w.frostWaiting w with
      | (w1, false) => w1
      | (w1, true) => w1.passIrrigation := rfl

/-- The pass over the irrigation runs leaves the frost run as it is. -/
theorem run_passIrrigation_zero (w : Works) : w.passIrrigation.run 0 = w.run 0 := by
  have hreadmit := run_passReadmit_ne (j := 0) (l := w.readmissions) (fun p hp => by
    obtain ⟨s, hs, hp⟩ := List.mem_flatMap.mp hp
    obtain ⟨z, -, rfl⟩ := List.mem_map.mp hp
    exact (of_mem_runsByAge hs).1) w
  unfold passIrrigation
  split
  · rename_i w2 h2
    rwa [h2] at hreadmit
  · rename_i w2 h2
    rw [h2] at hreadmit
    have hsuspended := run_passSuspended_ne (j := 0)
      (l := w2.runsByAge fun r => r.state == .suspended) (fun h => (of_mem_runsByAge h).1 rfl) w2
    split
    · rename_i w3 h3
      rw [h3] at hsuspended
      exact hsuspended.trans hreadmit
    · rename_i w3 h3
      rw [h3] at hsuspended
      rw [run_passQueued_ne fun h => (of_mem_runsByAge h).1 rfl]
      exact hsuspended.trans hreadmit

theorem FrostOpens.admissionPass (h : (Works.passFrost w.frostWaiting w).1.FrostOpens z) :
    w.admissionPass.FrostOpens z := by
  rw [admissionPass_eq]
  split
  · rename_i w1 h1
    rwa [h1] at h
  · rename_i w1 h1
    rw [h1] at h
    exact h.of_run (run_passIrrigation_zero w1)

theorem passFrost_fits {zs : List ZoneIx} (ha : w.admissible z = true)
    (hfits : w.demandOf z ≤ w.freeCapacity) :
    passFrost (z :: zs) w = passFrost zs ((w.admitEntry 0 z).judgeFrost) := by
  have hcap : ¬w.site.capacity < w.demandOf z :=
    Nat.not_lt.mpr (hfits.trans ((Nat.sub_le _ _).trans (Nat.sub_le _ _)))
  rw [passFrost, if_neg (by rw [ha]; decide), if_neg hcap]
  exact if_pos (decide_eq_true hfits)

theorem passFrost_suspends {zs : List ZoneIx} (ha : w.admissible z = true)
    (hfits : w.freeCapacity < w.demandOf z) (hcap : w.demandOf z ≤ w.site.capacity) :
    passFrost (z :: zs) w = (w.suspensionJudgment z, false) := by
  rw [passFrost, if_neg (by rw [ha]; decide), if_neg (Nat.not_lt.mpr hcap)]
  exact if_neg (by rw [fits, decide_eq_false (Nat.not_le_of_lt hfits)]; decide)

theorem frostWaiting_of (h : w.frostRun? = some r) : w.frostWaiting = r.zonesIn .waiting := by
  unfold frostWaiting
  rw [h]

/-- The first frost entry that waits is admitted where it fits, whatever the pass does after it (R125). -/
theorem admissionPass_frost_fits {zs : List ZoneIx} (hr : w.frostRun? = some r)
    (hz : r.zonesIn .waiting = z :: zs) (ha : w.admissible z = true)
    (hfits : w.demandOf z ≤ w.freeCapacity) :
    (w.admissionPass.frostEntry? z).map RunEntry.state = some .opening := by
  obtain ⟨hrun, hlive⟩ := run_of_frostRun? hr
  have hentry : ∃ x, r.entry? z = some x := by
    have hmem : z ∈ r.zonesIn .waiting := hz ▸ List.mem_cons_self
    obtain ⟨x, hx, hxz⟩ := List.any_eq_true.mp (Run.mem_zonesIn.mp hmem)
    refine Option.isSome_iff_exists.mp (List.find?_isSome.mpr ⟨x, hx, ?_⟩)
    exact (Bool.and_eq_true _ _ ▸ hxz).1
  obtain ⟨x, hx⟩ := hentry
  have hadmitted : (w.admitEntry 0 z).FrostOpens z :=
    ⟨_, x.become .opening, (run_admitEntry_self w 0 z).trans (congrArg _ hrun), hlive,
      Run.entry?_modEntry (fun _ => rfl) hx, rfl⟩
  refine FrostOpens.entry (FrostOpens.admissionPass ?_)
  rw [frostWaiting_of hr, hz, passFrost_fits ha hfits]
  exact hadmitted.judgeFrost.passFrost zs

/-- The first frost entry that does not fit ends the pass (R125, R132). -/
theorem admissionPass_suspends {zs : List ZoneIx} (hr : w.frostRun? = some r)
    (hz : r.zonesIn .waiting = z :: zs) (ha : w.admissible z = true)
    (hfits : w.freeCapacity < w.demandOf z) (hcap : w.demandOf z ≤ w.site.capacity) :
    w.admissionPass = w.suspensionJudgment z := by
  rw [admissionPass_eq, frostWaiting_of hr, hz, passFrost_suspends ha hfits hcap]

/-! ### The suspension judgment -/

section

variable {older : List SlotIx}

theorem suspendRuns_enough {need e n : Nat} (h : need ≤ e) (ss : List SlotIx) (w : Works) :
    suspendRuns need ss w e n = (w, e, n) := by
  cases ss with
  | nil => rfl
  | cons s ss => exact if_pos h

theorem suspendRuns_more {need e n : Nat} {s : SlotIx} (h : e < need) (ss : List SlotIx) (w : Works) :
    suspendRuns need (s :: ss) w e n =
      suspendRuns need ss (w.suspendRun s) (e + w.suspensionYield s) (n + 1) :=
  if_neg (Nat.not_le_of_lt h)

theorem suspensionJudgment_of {e n : Nat}
    (h : suspendRuns (w.demandOf z)
      (w.runsByAge fun r => r.state == .opening || r.state == .flowing).reverse w
      (w.freeCapacity + w.closingDemand) 0 = (v, e, n)) :
    w.suspensionJudgment z = if e < w.demandOf z then v.frostShort z e n else v := by
  unfold suspensionJudgment
  dsimp only
  rw [h]

variable (w z) in
/-- What is expected to come free, and which runs may be suspended for it (R132). -/
theorem suspensionJudgment_cases :
    (w.demandOf z ≤ w.freeCapacity + w.closingDemand → w.suspensionJudgment z = w)
    ∧ (w.freeCapacity + w.closingDemand < w.demandOf z →
        (w.runsByAge fun r => r.state == .opening || r.state == .flowing) = [] →
      w.suspensionJudgment z = w.frostShort z (w.freeCapacity + w.closingDemand) 0)
    ∧ ∀ i older, w.freeCapacity + w.closingDemand < w.demandOf z →
        (w.runsByAge fun r => r.state == .opening || r.state == .flowing) = older ++ [i] →
      (w.demandOf z ≤ w.freeCapacity + w.closingDemand + w.suspensionYield i →
        w.suspensionJudgment z = w.suspendRun i)
      ∧ (w.freeCapacity + w.closingDemand + w.suspensionYield i < w.demandOf z → older = [] →
        w.suspensionJudgment z =
          (w.suspendRun i).frostShort z (w.freeCapacity + w.closingDemand + w.suspensionYield i) 1) := by
  refine ⟨fun h => ?_, fun h hnone => ?_, fun i older h hsome => ⟨fun henough => ?_, fun hshort hold => ?_⟩⟩
  · exact (suspensionJudgment_of (suspendRuns_enough h _ w)).trans (if_neg (Nat.not_lt.mpr h))
  · have hruns := congrArg (fun l : List SlotIx => suspendRuns (w.demandOf z) l.reverse w
      (w.freeCapacity + w.closingDemand) 0) hnone
    exact (suspensionJudgment_of hruns).trans (if_pos h)
  · have hruns := (congrArg (fun l : List SlotIx => suspendRuns (w.demandOf z) l w
      (w.freeCapacity + w.closingDemand) 0) (hsome ▸ List.reverse_append :)).trans
        ((suspendRuns_more h _ w).trans (suspendRuns_enough henough _ _))
    exact (suspensionJudgment_of hruns).trans (if_neg (Nat.not_lt.mpr henough))
  · have hruns := (congrArg (fun l : List SlotIx => suspendRuns (w.demandOf z) l.reverse w
      (w.freeCapacity + w.closingDemand) 0) (hsome.trans (congrArg (· ++ [i]) hold))).trans
        (suspendRuns_more h [] w)
    exact (suspensionJudgment_of hruns).trans (if_pos hshort)

end

/-! ### FROST_SHORT -/

theorem frostShort_noted (he : w.frostEntry? z = some x) (h : x.shortNoted = true) (e n : Nat) :
    w.frostShort z e n = w := by
  unfold frostShort
  rw [he]
  exact if_pos h

/-- The entry is marked, so that the notice goes out once (R125). -/
theorem shortNoted_frostShort (he : w.frostEntry? z = some x) (h : x.shortNoted = false) (e n : Nat) :
    ((w.frostShort z e n).frostEntry? z).map RunEntry.shortNoted = some true := by
  obtain ⟨r, hr, hx⟩ := Option.bind_eq_some_iff.mp he
  obtain ⟨hrun, hlive⟩ := run_of_frostRun? hr
  have hput := (run_putEntry_self w 0 z fun e => { e with shortNoted := true }).trans (congrArg _ hrun)
  have hshort : (w.frostShort z e n).run 0 = some (r.modEntry z fun e => { e with shortNoted := true }) := by
    unfold frostShort
    rw [he]
    refine (congrArg (Works.run · 0) (if_neg (by rw [h]; decide))).trans ?_
    rw [run, runs_notice]
    exact hput
  rw [frostEntry?_of (frostRun?_of_run hshort hlive),
    Run.entry?_modEntry (g := fun e => { e with shortNoted := true }) (fun _ => rfl) hx]
  rfl

/-! ### Whole runs -/

theorem run_foldl_admitEntry (zs : List ZoneIx) (w : Works) (i : SlotIx) :
    (zs.foldl (fun w z => w.admitEntry i z) w).run i =
      (w.run i).map fun r => zs.foldl (fun r z => r.modEntry z fun e => e.become .opening) r := by
  induction zs generalizing w with
  | nil => simp
  | cons z zs ih =>
    rw [List.foldl_cons, ih, run_admitEntry_self, Option.map_map]
    rfl

theorem waitingZones_of (h : w.run i = some r) : w.waitingZones i = r.zonesIn .waiting := by
  unfold waitingZones
  rw [h]

theorem run_admitRun (h : w.run i = some r) (hs : r.state ≠ .opening) :
    (w.admitRun i).run i = some r.admitted := by
  have hentries := run_foldl_admitEntry (r.zonesIn .waiting) w i
  rw [h, Option.map_some, Run.foldl_modEntry _ r (fun _ e => e.become .opening) (fun _ _ => rfl)
    fun _ _ => rfl] at hentries
  unfold admitRun
  rw [waitingZones_of h]
  exact run_setRunState hentries (new := .opening) hs (by decide) none

/-- Whether every waiting entry of a run is admissible and all of them fit (R125). -/
def Fits (w : Works) (r : Run) : Prop :=
  (∀ x ∈ r.entries, x.state = .waiting → w.admissible x.zone = true)
    ∧ w.demandSum (r.zonesIn .waiting) ≤ w.freeCapacity

theorem runAdmissible_iff (h : w.run i = some r) :
    w.runAdmissible i = true ↔ ∀ x ∈ r.entries, x.state = .waiting → w.admissible x.zone = true := by
  unfold runAdmissible
  rw [waitingZones_of h]
  simp only [List.all_eq_true, Run.zonesIn, List.mem_map, List.mem_filter, beq_iff_eq]
  constructor
  · exact fun hall x hx hs => hall _ ⟨x, ⟨hx, hs⟩, rfl⟩
  · rintro hall _ ⟨x, ⟨hx, hs⟩, rfl⟩
    exact hall x hx hs

theorem runFits_iff (h : w.run i = some r) :
    w.runFits i = true ↔ w.demandSum (r.zonesIn .waiting) ≤ w.freeCapacity := by
  unfold runFits
  rw [waitingZones_of h]
  exact decide_eq_true_iff

section

variable (hr : w.run i = some r)
  (hfrost : ∀ y, w.frostRun? = some y → y.zonesIn .waiting = [])
  (hmoving : ∀ j x, j ≠ 0 → w.run j = some x → (x.state = .opening ∨ x.state = .flowing) →
    x.zonesIn .waiting = [])
include hfrost hmoving

/-- With no frost entry and no returned entry waiting, a pass turns to the suspended runs. -/
theorem admissionPass_whole :
    w.admissionPass = match passSuspended (w.runsByAge fun r => r.state == .suspended) w with
      | (w3, false) => w3
      | (w3, true) => passQueued (w3.runsByAge fun r => r.state == .queued) w3 := by
  have hwaiting : w.frostWaiting = [] := by
    unfold frostWaiting
    split
    · exact hfrost _ ‹_›
    · rfl
  have hreadmit : w.readmissions = [] := by
    refine List.flatMap_eq_nil_iff.mpr fun s hs => ?_
    obtain ⟨hs0, x, hx, hstate⟩ := of_mem_runsByAge hs
    have hnone := hmoving s x hs0 hx (by simpa using hstate)
    rw [waitingZones_of hx, hnone]
    rfl
  rw [admissionPass_eq, hwaiting]
  show w.passIrrigation = _
  unfold passIrrigation
  rw [hreadmit]
  rfl

include hr

/-- The oldest suspended run (R125). -/
theorem admissionPass_suspended {younger : List SlotIx}
    (hfirst : (w.runsByAge fun r => r.state == .suspended) = i :: younger) :
    (w.Fits r → w.admissionPass.run i = some r.admitted)
    ∧ ((∀ x ∈ r.entries, x.state = .waiting → w.admissible x.zone = true) → ¬w.Fits r →
        w.admissionPass = w) := by
  have hstate : r.state = .suspended := by
    obtain ⟨-, x, hx, hs⟩ := of_mem_runsByAge (hfirst ▸ List.mem_cons_self : i ∈ w.runsByAge _)
    obtain rfl := Option.some.inj (hr.symm.trans hx)
    exact beq_iff_eq.mp hs
  have hnot : i ∉ younger := (List.nodup_cons.mp (hfirst ▸ nodup_runsByAge w _)).1
  rw [admissionPass_whole hfrost hmoving, hfirst]
  refine ⟨fun hfits => ?_, fun hadm hfits => ?_⟩
  · have hpass : passSuspended (i :: younger) w = passSuspended younger (w.admitRun i) := by
      rw [passSuspended, if_neg (by rw [(runAdmissible_iff hr).mpr hfits.1]; decide)]
      exact if_pos ((runFits_iff hr).mpr hfits.2)
    have hrun := (run_passSuspended_ne hnot (w.admitRun i)).trans
      (run_admitRun hr (by rw [hstate]; decide))
    rw [hpass]
    split
    · rename_i w3 h3
      rwa [h3] at hrun
    · rename_i w3 h3
      rw [h3] at hrun
      rw [run_passQueued_ne fun hmem => ?_]
      · exact hrun
      · obtain ⟨-, x, hx, hs⟩ := of_mem_runsByAge hmem
        obtain rfl := Option.some.inj (hrun.symm.trans hx)
        exact nomatch hs
  · have hfull : ¬w.runFits i = true := fun h => hfits ⟨hadm, (runFits_iff hr).mp h⟩
    rw [passSuspended, if_neg (by rw [(runAdmissible_iff hr).mpr hadm]; decide), if_neg hfull]

/-- The oldest queued run, with none suspended (R125). -/
theorem admissionPass_queued {younger : List SlotIx}
    (hnone : (w.runsByAge fun r => r.state == .suspended) = [])
    (hfirst : (w.runsByAge fun r => r.state == .queued) = i :: younger) :
    (w.Fits r → w.admissionPass.run i = some r.admitted) ∧ (¬w.Fits r → w.admissionPass = w) := by
  have hstate : r.state = .queued := by
    obtain ⟨-, x, hx, hs⟩ := of_mem_runsByAge (hfirst ▸ List.mem_cons_self : i ∈ w.runsByAge _)
    obtain rfl := Option.some.inj (hr.symm.trans hx)
    exact beq_iff_eq.mp hs
  have hnot : i ∉ younger := (List.nodup_cons.mp (hfirst ▸ nodup_runsByAge w _)).1
  have hboth : (w.runAdmissible i && w.runFits i) = true ↔ w.Fits r := by
    rw [Bool.and_eq_true, runAdmissible_iff hr, runFits_iff hr, Fits]
  have hpass : w.admissionPass = passQueued (i :: younger) w := by
    rw [admissionPass_whole hfrost hmoving, hnone, ← hfirst]
    rfl
  rw [hpass, passQueued]
  refine ⟨fun hfits => ?_, fun hfits => if_neg fun h => hfits (hboth.mp h)⟩
  rw [if_pos (hboth.mpr hfits), run_passQueued_ne hnot]
  exact run_admitRun hr (by rw [hstate]; decide)

end

end Works

end Sys2Proof.Machine
end

section
/-! PROOF. The transfer of a zone to the frost run (R135), and O60. -/

namespace Sys2Proof.Machine

open Works State

variable {w u v : Works} {z y : ZoneIx} {i j : SlotIx} {r : Run} {x e : RunEntry}

namespace RunEntry

/-- The credit of R129, written out. -/
theorem credit_delivered (x : RunEntry) (time demand : Nat) :
    x.credit time demand = { x with
      delivered := match x.state, x.target, x.openSince with
        | .opened, some target, some since => min target (x.delivered + (time - since) * demand / 60)
        | _, _, _ => x.delivered } := by
  obtain ⟨zone, state, target, delivered, openSince, completion, closeCause, faultReason, shortNoted⟩ := x
  cases state <;> cases target <;> cases openSince <;> rfl

/-- An entry that is not OPEN is credited with nothing. -/
theorem credit_still (h : x.state ≠ .opened) (time demand : Nat) : x.credit time demand = x := by
  unfold credit
  split
  · exact absurd ‹_› h
  · rfl

/-- A CLOSING entry of a suspended run is withdrawn once it has closed (R135). -/
def suspendedToWithdraw (x : RunEntry) : RunEntry :=
  if x.closeCause = some .suspend then { x with closeCause := some .withdraw } else x

/-- The zone's irrigation entry after a transfer (R135). -/
def leftBehind (x : RunEntry) (time demand : Nat) : RunEntry :=
  match x.state with
  | .closing => x.suspendedToWithdraw
  | _ => (x.credit time demand).become .withdrawn

theorem suspendedToWithdraw_eq (x : RunEntry) :
    x.suspendedToWithdraw =
      { x with closeCause := if x.closeCause = some .suspend then some .withdraw else x.closeCause } := by
  unfold suspendedToWithdraw
  split <;> rfl

theorem withdrawn_eq (x : RunEntry) (time demand : Nat) :
    (x.credit time demand).become .withdrawn =
      { x with
        delivered := (x.credit time demand).delivered, state := .withdrawn, openSince := none,
        completion := none, closeCause := none } := by
  rw [credit_eq]
  rfl

end RunEntry

/-- A run with an active entry has a live frost state (R134). -/
theorem Run.frostState_live_of {e : RunEntry} (he : r.entry? z = some e) (ha : e.state.active = true) :
    r.frostState.live = true := by
  have hhas := Run.has_of_entry? he rfl
  unfold Run.frostState
  split
  · rfl
  · split
    · rfl
    · split
      · rfl
      · split
        · rfl
        · cases hs : e.state <;> rw [hs] at hhas ha
          · exact absurd hhas ‹_›
          · exact absurd hhas ‹_›
          · exact absurd hhas ‹_›
          · exact absurd hhas ‹_›
          · exact nomatch ha
          · exact nomatch ha
          · exact nomatch ha

namespace Works

theorem irrigationEntry?_some (h : w.irrigationEntry? z = some (i, x)) :
    i ≠ 0 ∧ ∃ r, w.run i = some r ∧ r.entry? z = some x ∧ x.state.active = true := by
  obtain ⟨a, ha, hfound⟩ := List.exists_of_findSome?_eq_some h
  have ha0 : a ≠ 0 := by simpa [irrigationSlots] using ha
  split at hfound
  · rename_i r hr
    split at hfound
    · split at hfound
      · rename_i e he
        split at hfound
        · rename_i hactive
          cases hfound
          exact ⟨ha0, r, hr, he, hactive⟩
        · exact nomatch hfound
      · exact nomatch hfound
    · exact nomatch hfound
  · exact nomatch hfound

/-- The frost run is looked at first (R121). -/
theorem findEntry_frost {p : EntryState → Bool} (hr : w.run 0 = some r) (hlive : r.live = true)
    (he : r.entry? z = some e) (hp : p e.state = true) : w.findEntry z p = some (0, e) := by
  have hslots : allSlots = 0 :: allSlots.tail := rfl
  unfold findEntry
  rw [hslots, List.findSome?_cons, hr]
  simp [hlive, he, hp]

theorem runSlot_syncRunSlot (w : Works) (z : ZoneIx) :
    ((w.syncRunSlot z).zone z).runSlot = (w.findEntry z EntryState.active).map Prod.fst := by
  unfold syncRunSlot
  dsimp only
  split
  · assumption
  · obtain ⟨g, hg⟩ := zone_touch_self
      (w.modZone z fun x => { x with runSlot := (w.findEntry z EntryState.active).map Prod.fst }) z
    rw [hg, zone_modZone_self]

/-! ### Joining the frost run -/

/-- A zone's entry stands in the live frost run; the other runs stand as they were. -/
structure Joined (w v : Works) (e : RunEntry) : Prop where
  calm : Calm true true w v
  others : ∀ j, j ≠ 0 → v.run j = w.run j
  entry : ∃ r, v.run 0 = some r ∧ r.live = true ∧ r.entry? e.zone = some e

theorem entry?_joined (r : Run) (e : RunEntry) :
    Run.entry? { r with entries := (r.entries.filter fun x => x.zone != e.zone) ++ [e] } e.zone = some e := by
  have hnone : (r.entries.filter fun x => x.zone != e.zone).find? (fun x => x.zone == e.zone) = none := by
    refine List.find?_eq_none.mpr fun x hx => ?_
    have := (List.mem_filter.mp hx).2
    simpa using this
  unfold Run.entry?
  rw [List.find?_append, hnone]
  simp

theorem state_createRun (w : Works) (i : SlotIx) (kind : RunKind) (origin : Origin) (state : RunState)
    (gather : Option Nat) (entries : List RunEntry) :
    ∃ r, (w.createRun i kind origin state gather entries).run i = some r ∧ r.entries = entries
      ∧ r.state = state := by
  by_cases hs : state = .flowing
  · have hput : ((w.withRun i (w.newRun kind origin state gather entries)).runNotice i none).run i =
        some (w.newRun kind origin state gather entries) := by
      rw [run, runs_runNotice]
      exact run_withRun_self w i _
    rw [createRun_eq, if_pos hs]
    exact state_nowFlowing hput
  · exact ⟨_, run_createRun hs, rfl, rfl⟩

theorem joinFrost_joined (w : Works) (ha : e.state = .opened ∨ e.state = .opening ∨ e.state = .waiting) :
    Joined w (w.joinFrost e) e := by
  have hactive : e.state.active = true := by rcases ha with h | h | h <;> rw [h] <;> rfl
  unfold joinFrost
  split
  · rename_i r hr
    obtain ⟨hrun, hlive⟩ := run_of_frostRun? hr
    obtain ⟨u, hu⟩ : ∃ u, u = (w.modRun 0 fun r =>
        { r with entries := (r.entries.filter fun x => x.zone != e.zone) ++ [e] }).syncRunSlot e.zone :=
      ⟨_, rfl⟩
    have hcalm : Calm true true w u := hu ▸ (modRun_calm w 0 _).trans (syncRunSlot_calm _ _)
    have hruns (j : SlotIx) : u.run j = (w.modRun 0 fun r =>
        { r with entries := (r.entries.filter fun x => x.zone != e.zone) ++ [e] }).run j := by
      rw [hu, run, runs_syncRunSlot, run]
    have hjoined : u.run 0 =
        some { r with entries := (r.entries.filter fun x => x.zone != e.zone) ++ [e] } := by
      rw [hruns, run_modRun_self, hrun]
      rfl
    rw [← hu]
    refine ⟨hcalm.trans (judgeFrost_calm u), fun j hj => ?_, ?_⟩
    · rw [(judgeFrost_restates u).others j hj, hruns, run_modRun, if_neg hj]
    · obtain ⟨r', hr', hentries, hstate⟩ := state_setRunState hjoined
        (Run.frostState { r with entries := (r.entries.filter fun x => x.zone != e.zone) ++ [e] }) none
      rw [judgeFrost_of (frostRun?_of_run hjoined hlive)]
      refine ⟨r', hr', ?_, ?_⟩
      · rw [Run.live, hstate]
        exact Run.frostState_live_of (entry?_joined r e) hactive
      · have := entry?_joined r e
        unfold Run.entry? at this ⊢
        rw [hentries]
        exact this
  · dsimp only
    refine ⟨createRun_calm _ _ _ _ _ _ _, fun j hj => run_createRun_ne hj, ?_⟩
    obtain ⟨r, hr, hentries, hstate⟩ := state_createRun w 0 .frost .auto
      (match e.state with | .opened => RunState.flowing | .opening => RunState.opening | _ => RunState.queued)
      none [e]
    refine ⟨r, hr, ?_, ?_⟩
    · rw [Run.live, hstate]
      rcases ha with h | h | h <;> rw [h] <;> rfl
    · unfold Run.entry?
      rw [hentries]
      simp

/-! ### The transfer -/

/-- A zone's frost entry in place of its irrigation entry, whose run is judged (R135). -/
def handedOver (w : Works) (z : ZoneIx) (i : SlotIx) (f : RunEntry) (g : RunEntry → RunEntry) : Works :=
  ((w.joinFrost f).putEntry i z g).judgeIrrigation i

structure HandedOver (w v : Works) (z : ZoneIx) (i : SlotIx) (f y : RunEntry) : Prop where
  calm : Calm false true w v
  frost : v.frostEntry? z = some f
  entry : (v.run i).bind (fun r => r.entry? z) = some y
  runSlot : (v.zone z).runSlot = some 0

theorem handedOver_handed {f : RunEntry} {g : RunEntry → RunEntry} (hi : i ≠ 0) (hr : w.run i = some r)
    (hx : r.entry? z = some x) (hf : f.zone = z)
    (ha : f.state = .opened ∨ f.state = .opening ∨ f.state = .waiting) (hg : ∀ e, (g e).zone = e.zone) :
    HandedOver w (w.handedOver z i f g) z i f (g x) := by
  subst hf
  have hjoined := joinFrost_joined w ha
  obtain ⟨r0, hr0, hlive, he⟩ := hjoined.entry
  have hactive : f.state.active = true := by rcases ha with h | h | h <;> rw [h] <;> rfl
  have hput := (run_putEntry_self (w.joinFrost f) i f.zone g).trans
    (congrArg _ ((hjoined.others i hi).trans hr))
  have hrun0 : ((w.joinFrost f).putEntry i f.zone g).run 0 = some r0 :=
    (run_putEntry_ne _ _ _ hi.symm).trans hr0
  obtain ⟨r', hr', hentries⟩ := (judgeIrrigation_restates _ i).run hput
  refine ⟨?_, ?_, ?_, ?_⟩
  · exact (Calm.weaken hjoined.calm).trans ((putEntry_calm _ i _ g).trans (judgeIrrigation_calm _ i))
  · have hkept :=
      ((judgeIrrigation_restates ((w.joinFrost f).putEntry i f.zone g) i).others 0 hi.symm).trans hrun0
    rw [handedOver, frostEntry?_of (frostRun?_of_run hkept hlive)]
    exact he
  · have hentry := Run.entry?_modEntry hg hx
    rw [handedOver, hr']
    unfold Run.entry? at hentry
    show r'.entry? f.zone = _
    unfold Run.entry?
    rw [hentries]
    exact hentry
  · have hfound : ((w.joinFrost f).modRun i fun r => r.modEntry f.zone g).findEntry f.zone EntryState.active =
        some (0, f) :=
      findEntry_frost ((run_modRun _ i 0 _).trans ((if_neg hi.symm).trans hr0)) hlive he hactive
    rw [handedOver, (judgeIrrigation_restates _ i).zone, putEntry, runSlot_syncRunSlot, hfound]
    rfl

theorem transfer_opened (h : x.state = .opened) :
    w.transfer z i x =
      (w.handedOver z i { RunEntry.waiting z none with state := .opened, openSince := some w.time }
        fun x => (x.credit w.time (w.demandOf z)).become .withdrawn).renew z := by
  unfold transfer
  rw [h]
  rfl

theorem transfer_opening (h : x.state = .opening) :
    w.transfer z i x = w.handedOver z i { RunEntry.waiting z none with state := .opening }
      fun x => x.become .withdrawn := by
  unfold transfer
  rw [h]
  rfl

theorem transfer_waiting (h : x.state = .waiting) :
    w.transfer z i x =
      (w.handedOver z i (RunEntry.waiting z none) fun x => x.become .withdrawn).offerAdmission := by
  unfold transfer
  rw [h]
  rfl

theorem transfer_closing (h : x.state = .closing) :
    w.transfer z i x =
      (w.handedOver z i (RunEntry.waiting z none) RunEntry.suspendedToWithdraw).offerAdmission := by
  unfold transfer
  rw [h]
  rfl

/-- The zone's frost entry after a transfer (R135). -/
def transferred (w : Works) (z : ZoneIx) (s : EntryState) : RunEntry :=
  match s with
  | .opened => { RunEntry.waiting z none with state := .opened, openSince := some w.time }
  | .opening => { RunEntry.waiting z none with state := .opening }
  | _ => RunEntry.waiting z none

/-- A transfer hands the zone over; a valve that stands OPEN is renewed, and one that does not offers
admission unless it opens (R135, R158). -/
structure Transferred (w v : Works) (z : ZoneIx) (i : SlotIx) (x : RunEntry) : Prop where
  frost : v.frostEntry? z = some (w.transferred z x.state)
  entry : (v.run i).bind (fun r => r.entry? z) = some (x.leftBehind w.time (w.demandOf z))
  runSlot : (v.zone z).runSlot = some 0
  valve : ∀ y, (v.zone y).valve = (w.zone y).valve
  renewed : x.state = .opened → ∃ k, (v.zone z).cmd = some k ∧ k.kind = .openValve ∧ k.renewal = true
    ∧ k.number = w.cmdNumber
  still : x.state ≠ .opened → (v.zone z).cmd = (w.zone z).cmd
  offers : x.state = .waiting ∨ x.state = .closing → v.offer = true

theorem transfer_transferred (h : w.irrigationEntry? z = some (i, x)) :
    Transferred w (w.transfer z i x) z i x := by
  obtain ⟨hi, r, hr, hx, hactive⟩ := irrigationEntry?_some h
  have hand {f : RunEntry} {g : RunEntry → RunEntry} := handedOver_handed (f := f) (g := g) hi hr hx
  cases hs : x.state with
  | opened =>
    have hgiven := hand (f := { RunEntry.waiting z none with state := .opened, openSince := some w.time })
      (g := fun x => (x.credit w.time (w.demandOf z)).become .withdrawn) rfl (Or.inl rfl)
      fun e => by rw [RunEntry.credit_eq]; rfl
    rw [transfer_opened hs]
    generalize w.handedOver z i _ _ = u at hgiven
    obtain ⟨k, hk, hnew⟩ := zone_createCmd_self u z .openValve true
    have hruns : (u.renew z).runs = u.runs := runs_createCmd u z .openValve true
    refine ⟨?_, ?_, ?_, fun y => ?_, fun _ => ⟨k, congrArg Zone.cmd hk, hnew.kind, hnew.renewal, ?_⟩,
      fun hne => absurd hs hne, fun hw => ?_⟩
    · rw [hs]
      refine Eq.trans ?_ hgiven.frost
      unfold frostEntry? frostRun? run
      rw [hruns]
    · have hleft :
          x.leftBehind w.time (w.demandOf z) = (x.credit w.time (w.demandOf z)).become .withdrawn := by
        unfold RunEntry.leftBehind
        rw [hs]
      rw [hleft, run, hruns]
      exact hgiven.entry
    · exact (congrArg Zone.runSlot hk).trans hgiven.runSlot
    · exact (zone_createCmd_valve u z y _ _).trans (hgiven.calm.valve rfl y)
    · rw [hnew.number, hgiven.calm.cmdNumber rfl]
    · rcases hw with hw | hw <;> exact nomatch hs.symm.trans hw
  | opening =>
    have hgiven := hand (f := { RunEntry.waiting z none with state := .opening })
      (g := fun x => x.become .withdrawn) rfl (Or.inr (Or.inl rfl)) fun _ => rfl
    have hleft : x.leftBehind w.time (w.demandOf z) = x.become .withdrawn := by
      unfold RunEntry.leftBehind
      rw [hs]
      exact congrArg (RunEntry.become · .withdrawn) (RunEntry.credit_still (by rw [hs]; decide) _ _)
    rw [transfer_opening hs]
    exact ⟨by rw [hs]; exact hgiven.frost, hleft ▸ hgiven.entry, hgiven.runSlot, hgiven.calm.valve rfl,
      fun ho => (nomatch hs.symm.trans ho), fun _ => hgiven.calm.cmd rfl z,
      fun hw => by rcases hw with hw | hw <;> exact nomatch hs.symm.trans hw⟩
  | waiting =>
    have hgiven := hand (f := RunEntry.waiting z none) (g := fun x => x.become .withdrawn) rfl
      (Or.inr (Or.inr rfl)) fun _ => rfl
    have hleft : x.leftBehind w.time (w.demandOf z) = x.become .withdrawn := by
      unfold RunEntry.leftBehind
      rw [hs]
      exact congrArg (RunEntry.become · .withdrawn) (RunEntry.credit_still (by rw [hs]; decide) _ _)
    rw [transfer_waiting hs]
    exact ⟨by rw [hs]; exact hgiven.frost, hleft ▸ hgiven.entry, hgiven.runSlot, hgiven.calm.valve rfl,
      fun ho => (nomatch hs.symm.trans ho), fun _ => hgiven.calm.cmd rfl z, fun _ => rfl⟩
  | closing =>
    have hgiven := hand (f := RunEntry.waiting z none) (g := RunEntry.suspendedToWithdraw) rfl
      (Or.inr (Or.inr rfl)) fun e => by unfold RunEntry.suspendedToWithdraw; split <;> rfl
    have hleft : x.leftBehind w.time (w.demandOf z) = x.suspendedToWithdraw := by
      unfold RunEntry.leftBehind
      rw [hs]
    rw [transfer_closing hs]
    exact ⟨by rw [hs]; exact hgiven.frost, hleft ▸ hgiven.entry, hgiven.runSlot, hgiven.calm.valve rfl,
      fun ho => (nomatch hs.symm.trans ho), fun _ => hgiven.calm.cmd rfl z, fun _ => rfl⟩
  | done => rw [hs] at hactive; exact nomatch hactive
  | withdrawn => rw [hs] at hactive; exact nomatch hactive
  | faulted => rw [hs] at hactive; exact nomatch hactive

/-- A place request of a zone without an active frost entry, which an irrigation run holds (R134, R135). -/
theorem placeWork_transfer (h : ∀ e, w.frostEntry? z = some e → e.state.active = false)
    (hx : w.irrigationEntry? z = some (i, x)) : w.placeWork z = w.transfer z i x := by
  unfold placeWork
  cases hf : w.frostEntry? z with
  | none =>
    dsimp only
    rw [hx]
  | some e =>
    have hnot := h e hf
    dsimp only
    cases hs : e.state with
    | waiting => rw [hs] at hnot; exact nomatch hnot
    | opening => rw [hs] at hnot; exact nomatch hnot
    | opened => rw [hs] at hnot; exact nomatch hnot
    | closing => rw [hs] at hnot; exact nomatch hnot
    | done => dsimp only; rw [hx]
    | withdrawn => dsimp only; rw [hx]
    | faulted => dsimp only; rw [hx]

end Works

/-- Settles O60. -/
theorem admissionSuspensionTransfer : Obligations.AdmissionSuspensionTransfer := by
  refine ⟨admissible_iff, fun w i z r hr => ⟨?_, zone_admitEntry_self w i z⟩,
    fun w r z zs hr hz ha => ⟨admissionPass_frost_fits hr hz ha, fun hfits hcap => ?_⟩,
    fun w z e n x hx => ⟨fun h => frostShort_noted hx h e n, fun h => shortNoted_frostShort hx h e n⟩,
    fun w i r hr hfrost hmoving => ?_, fun w i r hr hs hm => ⟨?_, fun x hx hmoves => ?_⟩,
    RunEntry.credit_delivered, fun w z i x v hnone hx hv => ?_⟩
  · rw [run_admitEntry_self, hr]
    rfl
  · dsimp only
    rw [admissionPass_suspends hr hz ha hfits hcap]
    exact suspensionJudgment_cases w z
  · have hadmitted : r.admitted = { r with
        state := .opening, closeCause := none, gatherDeadline := none, flowDeadline := none,
        entries := r.entries.map fun x =>
          if r.entries.any (fun y => y.zone == x.zone && y.state == .waiting) then
            { x with state := .opening, openSince := none, completion := none, closeCause := none }
          else x } := by
      unfold Run.admitted
      simp only [Run.mem_zonesIn]
      rfl
    intro fits admitted
    have hsame : admitted = some r.admitted := congrArg some hadmitted.symm
    rw [hsame]
    exact ⟨fun younger => admissionPass_suspended hr hfrost hmoving,
      fun younger => admissionPass_queued hr hfrost hmoving⟩
  · rw [run_suspendRun hr hs hm]
    simp only [Run.sentAll, Run.mem_moving, RunEntry.sentClosing_eq]
  · have hmoving : x.zone ∈ r.moving :=
      List.mem_map_of_mem (List.mem_filter.mpr ⟨hx, by rcases hmoves with h | h <;> rw [h] <;> rfl⟩)
    rw [valve_suspendRun hr hmoving]
    unfold Zone.askedToClose
    refine ⟨fun hvalve => by rw [hvalve], fun k hvalve hk => by rw [hvalve, hk]⟩
  · have htransfer := transfer_transferred hx
    rw [← placeWork_transfer hnone hx, ← hv] at htransfer
    refine ⟨?_, ?_, htransfer.runSlot, htransfer.valve, htransfer.renewed, htransfer.still, htransfer.offers⟩
    · rw [htransfer.frost]
      unfold transferred
      cases x.state <;> rfl
    · rw [htransfer.entry]
      unfold RunEntry.leftBehind
      rw [RunEntry.suspendedToWithdraw_eq, RunEntry.withdrawn_eq] <;> cases x.state <;> rfl

end Sys2Proof.Machine
end

section
/-! PROOF. The window close (O32). -/

namespace Sys2Proof.Machine

open Works State

variable {s : State} {w : Works} {i : WinIx} {nrs : NrsTurn} {d : Nat}

namespace State

/-- The open window whose deadline is reached closes, the other standing closed (R77). -/
theorem closingWindow?_of (hopen : s.windows[i].isOpen = true)
    (hother : s.windows[otherWindow i].isOpen = false) (hd : s.windows[i].closeDeadline = some d)
    (hle : d ≤ s.works.time) : s.closingWindow? = some i := by
  have hdue : (s.windows[i].isOpen && match s.windows[i].closeDeadline with
      | some d => s.works.reached d
      | none => false) = true := by
    rw [hopen, hd]
    exact reached_of_le hle
  have hwindows : List.finRange 2 = [0, 1] := by decide
  unfold closingWindow?
  rw [hwindows]
  obtain rfl | rfl := winIx_cases i
  · exact List.find?_cons_of_pos hdue
  · have hclosed : s.windows[(0 : WinIx)].isOpen = false := hother
    rw [List.find?_cons_of_neg (by rw [hclosed]; exact Bool.false_ne_true)]
    exact List.find?_cons_of_pos hdue

theorem works_withClosed (s : State) (i : WinIx) : (s.withClosed i).works = s.works := rfl

/-- The records that a pending commit is judged by: after the fold, and after NRS's work where it comes
before (R181; log 7). -/
theorem works_afterFold (s : State) (i : WinIx) (nrs : NrsTurn) {folded judged : Works}
    (hfolded : folded = (match s.folds[i] with
      | some record => s.works.foldWindow s.windows[i].acc record
      | none => s.works))
    (hjudged : judged = (if nrs = .beforeCommit then folded.rosterClose else folded)) :
    (s.afterFold i nrs).works = judged := by
  have hacc : (s.withClosed i).windows[i].acc = s.windows[i].acc :=
    (congrArg Window.acc (set_at_self s.windows i (s.windows[i].close s.works.time)) :)
  have hfold : ((s.withClosed i).foldClosed i).works = folded := by
    have hsame : (s.withClosed i).folds[i] = s.folds[i] := rfl
    unfold foldClosed
    rw [hfolded, hsame]
    cases s.folds[i] with
    | none => exact works_withClosed s i
    | some record => exact congrArg (s.works.foldWindow · record) hacc
  rw [hjudged, ← hfold]
  unfold afterFold nrsTurn
  by_cases h : nrs = .beforeCommit
  · rw [if_pos h, if_pos h, onWorks]
  · rw [if_neg h, if_neg h]

theorem afterFold_commit (s : State) (i : WinIx) (nrs : NrsTurn) :
    (s.afterFold i nrs).commitPending = s.commitPending ∧ (s.afterFold i nrs).bank = s.bank :=
  ⟨(congrArg State.commitPending (afterFold_only s i nrs) :),
    (congrArg State.bank (afterFold_only s i nrs) :)⟩

/-- The tables after a close are those that MGU's share leaves (R181). -/
theorem tables_closeWindow (s : State) (i : WinIx) (nrs : NrsTurn) :
    (s.closeWindow i nrs).works.tables = (s.afterFold i nrs).commitAtClose.works.tables :=
  (closeWindow_keeps s i nrs).tables

theorem tables_commitAtClose_none (h : s.commitPending = false) :
    s.commitAtClose.works.tables = s.works.tables := by
  unfold commitAtClose
  rw [if_neg (by rw [h]; exact Bool.false_ne_true)]

/-- A bank that passes every check is in force after the commit (R181, R184). -/
theorem tables_commitAtClose_good (h : s.commitPending = true) (hgood : s.works.validate s.bank = none) :
    s.commitAtClose.works.tables = s.bank := by
  have hcommit : s.works.commit s.bank = (s.works.activate s.bank, none) := by
    unfold commit
    rw [hgood]
  unfold commitAtClose
  rw [if_pos h]
  dsimp only
  rw [hcommit, (commitNotice_keeps (q := true) (n := true) (f := true) _ _ _).tables]
  exact (activate_keeps (q := true) (n := true) s.works s.bank).tables

theorem tables_commitAtClose_bad (h : s.commitPending = true) (hbad : s.works.validate s.bank ≠ none) :
    s.commitAtClose.works.tables = s.works.tables := by
  obtain ⟨f, hf⟩ := Option.ne_none_iff_exists'.mp hbad
  have hcommit : s.works.commit s.bank = (s.works, some f) := by
    unfold commit
    rw [hf]
  unfold commitAtClose
  rw [if_pos h]
  dsimp only
  rw [hcommit, (commitNotice_keeps (q := true) (n := true) (f := true) _ _ _).tables]

/-- The fold records after a close: the window that opens takes its own (R89). -/
theorem closeWindow_folds (s : State) (i : WinIx) (nrs : NrsTurn) :
    (s.closeWindow i nrs).folds[otherWindow i] = some (s.closeWindow i nrs).works.foldRecord
      ∧ (s.closeWindow i nrs).folds[i] = s.folds[i] := by
  have hfolds : (s.closeWindow i nrs).folds = s.folds.set (otherWindow i).val
      (some (s.closeWindow i nrs).works.foldRecord) (otherWindow i).isLt := by
    have hbefore : (s.afterFold i nrs).commitAtClose.folds = s.folds :=
      Eq.trans (congrArg State.folds (commitAtClose_eq _) :) (congrArg State.folds (afterFold_only s i nrs) :)
    have hrecord : (s.closeWindow i nrs).works.foldRecord =
        (s.afterFold i nrs).commitAtClose.works.foldRecord := by
      unfold foldRecord
      rw [tables_closeWindow]
    rw [hrecord, ← hbefore]
    exact (congrArg State.folds (closeWindow_only s i nrs) :)
  rw [hfolds]
  exact ⟨set_at_self _ _ _, set_at_other _ _ _ _ (otherWindow_ne i).symm⟩

end State

/-- Settles O32. -/
theorem windowCloseSwapsWindows : Obligations.WindowCloseSwapsWindows := by
  intro s nrs i d folded judged hopen hother hd hle hfolded hjudged
  have hcloses : s.windowCloses nrs = s.closeWindow i nrs := by
    unfold windowCloses
    rw [closingWindow?_of hopen hother hd hle]
  have hexec : exec (.windowClose nrs) s = .next (s.closeWindow i nrs).finish := by
    rw [exec_eq_effect]
    exact congrArg (fun t : State => Host.Outcome.next t.finish) hcloses
  have hsteady := closeWindow_steady s i nrs
  have haround := closeWindow_around s i nrs
  have hwindows := closeWindow_opened s i nrs
  rw [hsteady.time] at hwindows
  obtain ⟨hfold, hkept⟩ := closeWindow_folds s i nrs
  obtain ⟨hpending, hbank⟩ := afterFold_commit s i nrs
  have hworks := works_afterFold s i nrs hfolded hjudged
  have htables := tables_closeWindow s i nrs
  have hjudgedTables : judged.tables = s.works.tables := hworks ▸ (afterFold_keeps s i nrs).tables
  refine ⟨_, hexec, closeWindow_closed s i nrs, hwindows, hfold, hkept,
    (congrArg State.commitPending haround :), hsteady.time, hsteady.device, (congrArg State.bank haround :),
    (congrArg State.rxFifo haround :), (congrArg State.swuQueue haround :),
    (congrArg State.enuQueue haround :), (congrArg State.vcuQueue haround :),
    (congrArg State.mguQueue haround :), (congrArg State.requests haround :),
    (congrArg State.watch haround :), (congrArg State.pending haround :), fun hnone => ?_,
    fun hsome hgood => ?_,
    fun hsome hbad => ?_⟩
  · refine htables.trans ((tables_commitAtClose_none (hpending.trans hnone)).trans ?_)
    rw [hworks, hjudgedTables]
  · refine htables.trans ((tables_commitAtClose_good (hpending.trans hsome) ?_).trans hbank)
    rw [hworks, hbank, hgood]
  · refine htables.trans ((tables_commitAtClose_bad (hpending.trans hsome) ?_).trans ?_)
    · rw [hworks, hbank]
      exact hbad
    · rw [hworks, hjudgedTables]

end Sys2Proof.Machine
end

section
/-! PROOF. Frost figures and the blind flag (O27). -/

namespace Sys2Proof.Machine

open Works State

variable {u v w : Works} {x y z : ZoneIx}

/-! ### The least of what is measured -/

/-- m is the least value S allows, and none when S allows none. -/
def Least (S : Int → Prop) (m : Option Int) : Prop :=
  match m with
  | some v => S v ∧ ∀ a, S a → v ≤ a
  | none => ∀ a, ¬S a

theorem Least.congr {S T : Int → Prop} {m : Option Int} (h : Least S m) (hst : ∀ a, S a ↔ T a) :
    Least T m := by
  rwa [show T = S from funext fun a => propext (hst a).symm]

theorem Least.none_iff {S : Int → Prop} {m : Option Int} (h : Least S m) : m = none ↔ ∀ a, ¬S a := by
  cases m with
  | none => exact ⟨fun _ => h, fun _ => rfl⟩
  | some v => exact ⟨nofun, fun hnone => absurd h.1 (hnone v)⟩

theorem Least.of_option (o : Option Int) : Least (fun v => o = some v) o := by
  cases o with
  | none => exact nofun
  | some a => exact ⟨rfl, fun b hb => le_of_eq (Option.some.inj hb)⟩

theorem Least.minOpt {S T : Int → Prop} {a b : Option Int} (ha : Least S a) (hb : Least T b) :
    Least (fun v => S v ∨ T v) (minOpt a b) := by
  cases a with
  | none =>
    cases b with
    | none => exact fun v hv => hv.elim (ha v) (hb v)
    | some b => exact ⟨Or.inr hb.1, fun v hv => hv.elim (fun h => absurd h (ha v)) (hb.2 v)⟩
  | some a =>
    cases b with
    | none => exact ⟨Or.inl ha.1, fun v hv => hv.elim (ha.2 v) fun h => absurd h (hb v)⟩
    | some b =>
      refine ⟨?_, fun v hv => hv.elim (fun h => (min_le_left a b).trans (ha.2 v h))
        fun h => (min_le_right a b).trans (hb.2 v h)⟩
      rcases min_choice a b with h | h <;> rw [h]
      · exact Or.inl ha.1
      · exact Or.inr hb.1

/-- A fold of minima over the elements that count. -/
theorem Least.foldl {α : Type} (l : List α) (p : α → Prop) [DecidablePred p] (f : α → Option Int)
    (T : α → Int → Prop) (hf : ∀ x ∈ l, Least (T x) (f x))
    {S : Int → Prop} {a : Option Int} (ha : Least S a) :
    Least (fun v => S v ∨ ∃ x ∈ l, p x ∧ T x v)
      (l.foldl (fun m x => if p x then Sys2Proof.Machine.minOpt m (f x) else m) a) := by
  induction l generalizing a S with
  | nil => exact ha.congr fun v => by simp
  | cons x l ih =>
    have htail := fun y hy => hf y (List.mem_cons_of_mem x hy)
    rw [List.foldl_cons]
    by_cases hx : p x
    · rw [if_pos hx]
      refine (ih htail (ha.minOpt (hf x List.mem_cons_self))).congr fun v => ?_
      simp [hx, or_assoc]
    · rw [if_neg hx]
      refine (ih htail ha).congr fun v => ?_
      simp [hx]

theorem least_smallest (e : Entry) (k : ClassCode) :
    Least (fun v => ∃ c ∈ e.channels, c.cls = k ∧ c.latest = some v) (e.smallest k) := by
  have h := Least.foldl e.channels (fun c => c.cls = k) Channel.latest (fun c v => c.latest = some v)
    (fun c _ => Least.of_option c.latest) (S := fun _ => False) (a := none) fun _ => id
  exact h.congr fun v => by simp

namespace Works

theorem least_ownFigure (w : Works) (z : ZoneIx) (k : ClassCode) :
    Least (fun v => ∃ e c, ((w.entry e).state = .active ∨ (w.entry e).state = .silent)
      ∧ (w.entry e).zone = some z ∧ c ∈ (w.entry e).channels ∧ c.cls = k ∧ c.latest = some v)
      (w.ownFigure z k) := by
  have h := Least.foldl w.roster.toList (fun e => (e.heard && e.zone == some z) = true)
    (fun e => e.smallest k) (fun e v => ∃ c ∈ e.channels, c.cls = k ∧ c.latest = some v)
    (fun e _ => least_smallest e k) (S := fun _ => False) (a := none) fun _ => id
  refine h.congr fun v => ?_
  simp only [Vector.mem_toList_iff, Vector.mem_iff_getElem, false_or, Entry.heard, Bool.and_eq_true,
    Bool.or_eq_true, beq_iff_eq]
  constructor
  · rintro ⟨_, ⟨n, hn, rfl⟩, ⟨hstate, hzone⟩, c, hc, hcls, hlatest⟩
    exact ⟨⟨n, hn⟩, c, hstate, hzone, hc, hcls, hlatest⟩
  · rintro ⟨e, c, hstate, hzone, hc, hcls, hlatest⟩
    exact ⟨_, ⟨e.val, e.isLt, rfl⟩, ⟨hstate, hzone⟩, c, hc, hcls, hlatest⟩

/-! ### Forming the figures -/

theorem modZone_congr {f g : Zone → Zone} (h : f (w.zone z) = g (w.zone z)) :
    w.modZone z f = w.modZone z g := by
  have hrow : upd w.zones z f = upd w.zones z g := congrArg (fun a => w.zones.set z.val a z.isLt) h
  unfold modZone
  rw [hrow]

/-- The zone with its figures formed (R99, R100). -/
def formed (w : Works) (z : ZoneIx) : Works :=
  w.modZone z fun x => { x with
    dry := w.pickFigure z Zone.ownDry, wet := w.pickFigure z Zone.ownWet,
    blind := (w.pickFigure z Zone.ownWet).isNone }

theorem formFigures_eq (w : Works) (z : ZoneIx) :
    w.formFigures z = (w.formed z).blindNotice z (w.zone z).blind := rfl

/-- The figure of R99, written out over the zones' own figures. -/
theorem pickFigure_eq {figure : Option Int → (ZoneIx → Option Int) → Option Figure}
    (h : ∀ own others, figure own others =
      if (w.cfg z).inUse = true then
        match own, (w.cfg z).reference with
        | some m, _ => some { value := m, source := .own }
        | none, some r => (others r).map fun m => { value := m, source := .reference }
        | none, none => none
      else none) (own : Zone → Option Int) :
    figure (own (w.zone z)) (fun y => own (w.zone y)) = w.pickFigure z own := by
  rw [h]
  unfold pickFigure
  split
  · split <;> simp_all
  · rfl

theorem running_of_halted (h : w.device = .halted) : w.running = false := by
  rw [running, h]
  rfl

theorem blindNotice_silent (h : w.device = .halted ∨ (w.cfg z).inUse = false) (b : Bool) :
    w.blindNotice z b = w := by
  have hnot : ¬(w.running && (w.cfg z).inUse) = true := by
    rcases h with h | h
    · rw [running_of_halted h, Bool.false_and]
      exact Bool.false_ne_true
    · rw [h, Bool.and_false]
      exact Bool.false_ne_true
  exact if_neg hnot

theorem blindNotice_same {b : Bool} (h : b = (w.zone z).wet.isNone) : w.blindNotice z b = w := by
  unfold blindNotice
  split
  · split
    · rename_i hwet
      rw [hwet] at h
      exact nomatch h
    · rename_i hwet
      rw [hwet] at h
      exact nomatch h
    · rfl
  · rfl

theorem blindNotice_blind (hrun : w.device = .running) (huse : (w.cfg z).inUse = true)
    (hwet : (w.zone z).wet = none) :
    w.blindNotice z false = w.notice .frostBlind (byte z.val)
      ([byte z.val] ++ optFigure (w.zone z).dry ++ [(w.zone z).frost.code]) := by
  unfold blindNotice
  rw [if_pos (by rw [running_iff.mpr hrun, huse]; rfl), hwet]

theorem blindNotice_sighted {g : Figure} (hrun : w.device = .running) (huse : (w.cfg z).inUse = true)
    (hwet : (w.zone z).wet = some g) :
    w.blindNotice z true = w.notice .frostSighted (byte z.val)
      ([byte z.val] ++ signed16 g.value ++ [g.source.code, (w.zone z).frost.code]) := by
  unfold blindNotice
  rw [if_pos (by rw [running_iff.mpr hrun, huse]; rfl), hwet]

/-! ### Evaluations leave the figures -/

/-- Figures and own figures stand everywhere, and frost states everywhere but at x. -/
structure EvalAt (x : ZoneIx) (u v : Works) : Prop where
  tables : v.tables = u.tables
  own : ∀ y, (v.zone y).ownDry = (u.zone y).ownDry ∧ (v.zone y).ownWet = (u.zone y).ownWet
  formed : ∀ y, (v.zone y).dry = (u.zone y).dry ∧ (v.zone y).wet = (u.zone y).wet
    ∧ (v.zone y).blind = (u.zone y).blind
  frost : ∀ y, y ≠ x → (v.zone y).frost = (u.zone y).frost

theorem EvalAt.refl (u : Works) : EvalAt x u u :=
  ⟨rfl, fun _ => ⟨rfl, rfl⟩, fun _ => ⟨rfl, rfl, rfl⟩, fun _ _ => rfl⟩

theorem EvalAt.trans (a : EvalAt x u v) (b : EvalAt x v w) : EvalAt x u w where
  tables := b.tables.trans a.tables
  own y := ⟨(b.own y).1.trans (a.own y).1, (b.own y).2.trans (a.own y).2⟩
  formed y := ⟨(b.formed y).1.trans (a.formed y).1, (b.formed y).2.1.trans (a.formed y).2.1,
    (b.formed y).2.2.trans (a.formed y).2.2⟩
  frost y h := (b.frost y h).trans (a.frost y h)

theorem EvalAt.ite {p : Prop} [Decidable p] (a : EvalAt x w u) (b : EvalAt x w v) :
    EvalAt x w (if p then u else v) := by
  split
  · exact a
  · exact b

theorem EvalAt.of_keeps {q n : Bool} (h : Keeps q n true u v) : EvalAt x u v where
  tables := h.tables
  own y := ⟨(congrArg Zone.ownDry (h.figures rfl y) :), (congrArg Zone.ownWet (h.figures rfl y) :)⟩
  formed y := ⟨(congrArg Zone.dry (h.figures rfl y) :), (congrArg Zone.wet (h.figures rfl y) :),
    (congrArg Zone.blind (h.figures rfl y) :)⟩
  frost y _ := (congrArg Zone.frost (h.figures rfl y) :)

theorem modZone_evalAt (u : Works) (x : ZoneIx) (g : Zone → Zone)
    (hown : ∀ a, (g a).ownDry = a.ownDry ∧ (g a).ownWet = a.ownWet)
    (hformed : ∀ a, (g a).dry = a.dry ∧ (g a).wet = a.wet ∧ (g a).blind = a.blind) :
    EvalAt x u (u.modZone x g) where
  tables := rfl
  own y := by
    rw [zone_modZone]
    split
    · exact hown _
    · exact ⟨rfl, rfl⟩
  formed y := by
    rw [zone_modZone]
    split
    · exact hformed _
    · exact ⟨rfl, rfl, rfl⟩
  frost y h := by rw [zone_modZone, if_neg h]

theorem setFrost_evalAt (u : Works) (x : ZoneIx) (new : FrostState) (thaw : Option Nat) (c : FrostCause) :
    EvalAt x u (u.setFrost x new thaw c) := by
  by_cases hn : (u.zone x).frost = new
  · rw [setFrost_same hn]
    exact EvalAt.refl u
  · obtain ⟨g, hg⟩ := zone_setFrost_self hn thaw c
    refine ⟨(setFrost_calm (q := true) (k := true) u x new thaw c).tables, fun y => ?_, fun y => ?_,
      fun y hy => congrArg Zone.frost (zone_setFrost_ne u new thaw c hy)⟩
    · by_cases hy : y = x
      · subst hy
        rw [hg]
        exact ⟨rfl, rfl⟩
      · rw [zone_setFrost_ne u new thaw c hy]
        exact ⟨rfl, rfl⟩
    · by_cases hy : y = x
      · subst hy
        rw [hg]
        exact ⟨rfl, rfl, rfl⟩
      · rw [zone_setFrost_ne u new thaw c hy]
        exact ⟨rfl, rfl, rfl⟩

theorem settleZone_evalAt (u : Works) (x : ZoneIx) (c : FrostCause) : EvalAt x u (u.settleZone x c) :=
  setFrost_evalAt u x _ none c

theorem frostConfirmed_evalAt (u : Works) (x : ZoneIx) (c : FrostCause) :
    EvalAt x u (u.frostConfirmed x c) := by
  have h : EvalAt x u (u.modZone x fun a => { a with confirm := 0 }) :=
    modZone_evalAt u x _ (fun _ => ⟨rfl, rfl⟩) fun _ => ⟨rfl, rfl, rfl⟩
  exact EvalAt.ite
    (h.trans ((EvalAt.of_keeps (place_keeps (q := true) (n := true) _ x)).trans (setFrost_evalAt _ x _ _ c)))
    (h.trans (setFrost_evalAt _ x _ _ c))

theorem evaluateQuiet_evalAt (u : Works) (x : ZoneIx) (wet : Int) (k : Bool) (c : FrostCause) :
    EvalAt x u (u.evaluateQuiet x wet k c) := by
  have h : EvalAt x u (u.modZone x fun a => { a with confirm := 0 }) :=
    modZone_evalAt u x _ (fun _ => ⟨rfl, rfl⟩) fun _ => ⟨rfl, rfl, rfl⟩
  unfold evaluateQuiet
  refine EvalAt.ite (EvalAt.ite (EvalAt.ite (frostConfirmed_evalAt u x c) ?_) (EvalAt.refl u)) ?_
  · exact modZone_evalAt u x _ (fun _ => ⟨rfl, rfl⟩) fun _ => ⟨rfl, rfl, rfl⟩
  · dsimp only
    split
    · exact h
    · exact EvalAt.ite (h.trans (setFrost_evalAt _ x _ _ c))
        (EvalAt.ite (h.trans (setFrost_evalAt _ x _ _ c)) h)

theorem evaluate_evalAt (u : Works) (x : ZoneIx) (wet : Int) (k : Bool) (c : FrostCause) :
    EvalAt x u (u.evaluate x wet k c) := by
  unfold evaluate
  dsimp only
  split
  · exact evaluateQuiet_evalAt u x wet k c
  · exact evaluateQuiet_evalAt u x wet k c
  · exact EvalAt.ite ((EvalAt.of_keeps (withdraw_keeps (q := true) (n := true) u x)).trans
      (settleZone_evalAt _ x c)) (EvalAt.refl u)
  · exact EvalAt.ite (setFrost_evalAt u x _ _ c) (EvalAt.refl u)
  · exact EvalAt.ite (EvalAt.refl u) (setFrost_evalAt u x _ _ c)
  · exact EvalAt.ite (settleZone_evalAt u x c) (EvalAt.refl u)

/-- A zone is recomputed: its figures are formed, and an evaluation may follow. -/
theorem recompute_evalAt (u : Works) (x : ZoneIx) (k : Option FigSource) (c : FrostCause) :
    EvalAt x (u.formed x) (u.recompute x k c) := by
  have h : EvalAt x (u.formed x) (u.formFigures x) := by
    rw [formFigures_eq]
    exact EvalAt.of_keeps (blindNotice_keeps (q := true) (n := true) _ x _)
  unfold recompute
  dsimp only
  split
  · exact h.trans (evaluate_evalAt _ x _ _ c)
  · exact EvalAt.ite (h.trans (setFrost_evalAt _ x _ _ c)) h

/-! ### One event -/

/-- Own figures stand everywhere; figures and frost states stand everywhere but at x. -/
structure FormsAt (x : ZoneIx) (u v : Works) : Prop where
  tables : v.tables = u.tables
  own : ∀ y, (v.zone y).ownDry = (u.zone y).ownDry ∧ (v.zone y).ownWet = (u.zone y).ownWet
  others : ∀ y, y ≠ x → (v.zone y).dry = (u.zone y).dry ∧ (v.zone y).wet = (u.zone y).wet
    ∧ (v.zone y).blind = (u.zone y).blind ∧ (v.zone y).frost = (u.zone y).frost

/-- The zone's figures and its blind flag are as the own figures make them (R99, R100). -/
def Formed (w : Works) (y : ZoneIx) : Prop :=
  (w.zone y).dry = w.pickFigure y Zone.ownDry ∧ (w.zone y).wet = w.pickFigure y Zone.ownWet
    ∧ (w.zone y).blind = (w.zone y).wet.isNone

theorem pickFigure_congr (ht : v.tables = u.tables) {own : Zone → Option Int}
    (h : ∀ y, own (v.zone y) = own (u.zone y)) (y : ZoneIx) : v.pickFigure y own = u.pickFigure y own := by
  unfold pickFigure cfg
  rw [ht]
  simp only [h]

theorem FormsAt.pick (h : FormsAt x u v) (y : ZoneIx) :
    v.pickFigure y Zone.ownDry = u.pickFigure y Zone.ownDry
      ∧ v.pickFigure y Zone.ownWet = u.pickFigure y Zone.ownWet :=
  ⟨pickFigure_congr h.tables (fun y => (h.own y).1) y, pickFigure_congr h.tables (fun y => (h.own y).2) y⟩

/-- A zone that is not recomputed keeps its figures formed. -/
theorem FormsAt.formed (h : FormsAt x u v) (hy : y ≠ x) (hf : u.Formed y) : v.Formed y := by
  obtain ⟨hdry, hwet, hblind⟩ := hf
  obtain ⟨hd, hw, hb, -⟩ := h.others y hy
  obtain ⟨hpd, hpw⟩ := h.pick y
  exact ⟨hd.trans (hdry.trans hpd.symm), hw.trans (hwet.trans hpw.symm),
    hb.trans (hblind.trans (by rw [hw]))⟩

theorem recompute_forms (u : Works) (x : ZoneIx) (k : Option FigSource) (c : FrostCause) :
    FormsAt x u (u.recompute x k c) ∧ (u.recompute x k c).Formed x := by
  have h := recompute_evalAt u x k c
  have hself : (u.formed x).zone x = { u.zone x with
      dry := u.pickFigure x Zone.ownDry, wet := u.pickFigure x Zone.ownWet,
      blind := (u.pickFigure x Zone.ownWet).isNone } := zone_modZone_self u x _
  have hne (y : ZoneIx) (hy : y ≠ x) : (u.formed x).zone y = u.zone y :=
    (zone_modZone u x y _).trans (if_neg hy)
  have hforms : FormsAt x u (u.recompute x k c) := by
    refine ⟨h.tables, fun y => ?_, fun y hy => ?_⟩
    · by_cases hy : y = x
      · subst hy
        rw [(h.own y).1, (h.own y).2, hself]
        exact ⟨rfl, rfl⟩
      · rw [(h.own y).1, (h.own y).2, hne y hy]
        exact ⟨rfl, rfl⟩
    · obtain ⟨hd, hw, hb⟩ := h.formed y
      have hf := h.frost y hy
      rw [hne y hy] at hd hw hb hf
      exact ⟨hd, hw, hb, hf⟩
  obtain ⟨hpd, hpw⟩ := hforms.pick x
  obtain ⟨hd, hw, hb⟩ := h.formed x
  rw [hself] at hd hw hb
  exact ⟨hforms, hd.trans hpd.symm, hw.trans hpw.symm, hb.trans (by rw [hw])⟩

/-- The zones that take z as their reference (R101). -/
def takes (w : Works) (z x : ZoneIx) : Bool := (w.cfg x).inUse && (w.cfg x).reference == some z

theorem takes_iff (w : Works) (z x : ZoneIx) :
    w.takes z x = true ↔ (w.cfg x).inUse = true ∧ (w.cfg x).reference = some z := by
  simp [takes]

theorem takes_congr (h : v.tables = u.tables) (z x : ZoneIx) : v.takes z x = u.takes z x := by
  unfold takes cfg
  rw [h]

/-- The second part of an event at z, over the zones listed (R101). -/
def followers (z : ZoneIx) (k : Option FigSource) (c : FrostCause) (w : Works) (xs : List ZoneIx) : Works :=
  xs.foldl (fun w x => if w.takes z x then w.recompute x k c else w) w

theorem frostEvent_eq (w : Works) (z : ZoneIx) (sensor : Bool) (c : FrostCause) :
    w.frostEvent z sensor c =
      followers z (if sensor then some .reference else none) c
        ((w.formOwn z).recompute z (if sensor then some .own else none) c) allZones := rfl

theorem followers_forms (z : ZoneIx) (k : Option FigSource) (c : FrostCause) (xs : List ZoneIx) (u : Works) :
    (followers z k c u xs).tables = u.tables
      ∧ (∀ y, ((followers z k c u xs).zone y).ownDry = (u.zone y).ownDry
          ∧ ((followers z k c u xs).zone y).ownWet = (u.zone y).ownWet)
      ∧ (∀ y, u.Formed y ∨ (y ∈ xs ∧ u.takes z y = true) → (followers z k c u xs).Formed y)
      ∧ ∀ y, u.takes z y = false → ((followers z k c u xs).zone y).dry = (u.zone y).dry
          ∧ ((followers z k c u xs).zone y).wet = (u.zone y).wet
          ∧ ((followers z k c u xs).zone y).blind = (u.zone y).blind
          ∧ ((followers z k c u xs).zone y).frost = (u.zone y).frost := by
  induction xs generalizing u with
  | nil =>
    exact ⟨rfl, fun _ => ⟨rfl, rfl⟩, fun y h => h.elim id fun h => absurd h.1 List.not_mem_nil,
      fun _ _ => ⟨rfl, rfl, rfl, rfl⟩⟩
  | cons x xs ih =>
    by_cases hx : u.takes z x = true
    · have hstep : followers z k c u (x :: xs) = followers z k c (u.recompute x k c) xs :=
        congrArg (fun v => followers z k c v xs) (if_pos hx)
      obtain ⟨hforms, hformed⟩ := recompute_forms u x k c
      obtain ⟨htables, hown, hf, hothers⟩ := ih (u.recompute x k c)
      rw [hstep]
      refine ⟨htables.trans hforms.tables, fun y => ⟨(hown y).1.trans (hforms.own y).1,
        (hown y).2.trans (hforms.own y).2⟩, fun y h => hf y ?_, fun y hy => ?_⟩
      · by_cases hyx : y = x
        · exact Or.inl (hyx ▸ hformed)
        · refine h.imp (hforms.formed hyx) fun h => ⟨(List.mem_cons.mp h.1).resolve_left hyx, ?_⟩
          rw [takes_congr hforms.tables]
          exact h.2
      · have hyx : y ≠ x := fun h => absurd (h ▸ hx) (by rw [hy]; decide)
        obtain ⟨hd, hw, hb, hfr⟩ := hforms.others y hyx
        obtain ⟨hd', hw', hb', hfr'⟩ := hothers y (by rw [takes_congr hforms.tables]; exact hy)
        exact ⟨hd'.trans hd, hw'.trans hw, hb'.trans hb, hfr'.trans hfr⟩
    · have hstep : followers z k c u (x :: xs) = followers z k c u xs :=
        congrArg (fun v => followers z k c v xs) (if_neg hx)
      obtain ⟨htables, hown, hf, hothers⟩ := ih u
      rw [hstep]
      refine ⟨htables, hown, fun y h => hf y (h.imp_right fun h => ⟨?_, h.2⟩), hothers⟩
      exact (List.mem_cons.mp h.1).resolve_left fun hyx => hx (hyx ▸ h.2)

end Works

/-- Settles O27. -/
theorem frostFiguresFollowSensors : Obligations.FrostFiguresFollowSensors := by
  refine ⟨fun w z k => ⟨fun m hm => ?_, ?_⟩, fun w z figure v hfig hv => ?_, fun w z sensor cause v hv => ?_⟩
  · have h := least_ownFigure w z k
    rw [hm] at h
    obtain ⟨⟨e, c, hstate, hzone, hc, hcls, hlatest⟩, hmin⟩ := h
    exact ⟨⟨e, c, hstate, hzone, hc, hcls, hlatest⟩, fun e c v hstate hzone hc hcls hlatest =>
      hmin v ⟨e, c, hstate, hzone, hc, hcls, hlatest⟩⟩
  · rw [(least_ownFigure w z k).none_iff]
    constructor
    · intro h e c hstate hzone hc hcls
      exact Option.eq_none_iff_forall_ne_some.mpr fun v hv => h v ⟨e, c, hstate, hzone, hc, hcls, hv⟩
    · rintro h v ⟨e, c, hstate, hzone, hc, hcls, hlatest⟩
      rw [h e c hstate hzone hc hcls] at hlatest
      exact nomatch hlatest
  · have hformed : v = w.formed z := by
      rw [hv]
      refine modZone_congr ?_
      rw [pickFigure_eq hfig Zone.ownDry, pickFigure_eq hfig Zone.ownWet]
    have hself := zone_modZone_self w z fun x => { x with
      dry := w.pickFigure z Zone.ownDry, wet := w.pickFigure z Zone.ownWet,
      blind := (w.pickFigure z Zone.ownWet).isNone }
    have hblind : (v.zone z).blind = (v.zone z).wet.isNone := by rw [hformed, formed, hself]
    have hfrost : (v.zone z).frost = (w.zone z).frost := by rw [hformed, formed, hself]
    have hcfg : v.cfg z = w.cfg z := by rw [hformed]; rfl
    have hdevice : v.device = w.device := by rw [hformed]; rfl
    rw [formFigures_eq, ← hformed]
    refine ⟨fun h => ?_, fun hrun huse hsaw hwet => ?_, fun g hrun huse hsaw hwet => ?_⟩
    · rcases h with h | h | h
      · exact blindNotice_silent (Or.inl (hdevice.trans h)) _
      · exact blindNotice_silent (Or.inr (by rw [hcfg, h])) _
      · exact blindNotice_same (h.symm.trans hblind)
    · rw [hsaw, blindNotice_blind (hdevice.trans hrun) (by rw [hcfg, huse]) hwet, hfrost]
    · rw [hsaw, blindNotice_sighted (hdevice.trans hrun) (by rw [hcfg, huse]) hwet, hfrost]
  · obtain ⟨u, hu⟩ : ∃ u, u = w.formOwn z := ⟨_, rfl⟩
    have hself : u.zone z = { w.zone z with
        ownDry := if (w.cfg z).inUse then w.ownFigure z 1 else none,
        ownWet := if (w.cfg z).inUse then w.ownFigure z 2 else none } := by
      rw [hu]
      exact zone_modZone_self w z _
    have hne (y : ZoneIx) (hy : y ≠ z) : u.zone y = w.zone y := by
      rw [hu]
      exact (zone_modZone w z y _).trans (if_neg hy)
    have hutables : u.tables = w.tables := by rw [hu]; rfl
    obtain ⟨hforms, hformed⟩ := recompute_forms u z (if sensor then some .own else none) cause
    obtain ⟨htables, hown, hf, hothers⟩ := followers_forms z (if sensor then some .reference else none) cause
      allZones (u.recompute z (if sensor then some .own else none) cause)
    rw [hu, ← frostEvent_eq, ← hv, ← hu] at htables hown hf hothers
    have htakes (y : ZoneIx) :
        (u.recompute z (if sensor then some .own else none) cause).takes z y = w.takes z y :=
      takes_congr (hforms.tables.trans hutables) z y
    refine ⟨?_, ?_, fun y hy => hf y ?_, fun y hy => ?_, fun y hy hnot => ?_⟩
    · rw [(hown z).1, (hforms.own z).1, hself]
    · rw [(hown z).2, (hforms.own z).2, hself]
    · rcases hy with rfl | hy
      · exact Or.inl hformed
      · refine Or.inr ⟨mem_allZones y, ?_⟩
        rw [htakes]
        exact (takes_iff w z y).mpr hy
    · rw [(hown y).1, (hown y).2, (hforms.own y).1, (hforms.own y).2, hne y hy]
      exact ⟨rfl, rfl⟩
    · have hnt : (u.recompute z (if sensor then some .own else none) cause).takes z y = false := by
        rw [htakes]
        exact Bool.eq_false_iff.mpr fun h => hnot ((takes_iff w z y).mp h)
      obtain ⟨hd, hw, hb, hfr⟩ := hforms.others y hy
      obtain ⟨hd', hw', hb', hfr'⟩ := hothers y hnt
      rw [hne y hy] at hd hw hb hfr
      exact ⟨hd'.trans hd, hw'.trans hw, hb'.trans hb, hfr'.trans hfr⟩

end Sys2Proof.Machine
end

section
/-! PROOF. The reports of a close and the automatic trigger (O14). -/

namespace Sys2Proof.Machine

open Works State

variable {u v w : Works} {i j : SlotIx} {x y z : ZoneIx} {r : Run} {e : RunEntry}

/-! ### Groups of 16 -/

/-- A list of at most 40 in sixteens, the empty ones left out, as reportGroups cuts it. -/
def sixteens (zs : List ZoneIx) : List (List ZoneIx) :=
  [zs.take 16, (zs.drop 16).take 16, (zs.drop 32).take 16].filter fun g => !g.isEmpty

theorem sixteens_nil : sixteens [] = [] := rfl

theorem not_isEmpty_of_pos {zs : List ZoneIx} (h : 0 < zs.length) : (!zs.isEmpty) = true := by
  simpa using List.ne_nil_of_length_pos h

/-- One group: the list itself. -/
theorem sixteens_one {zs : List ZoneIx} (h0 : zs ≠ []) (h1 : zs.length ≤ 16) : sixteens zs = [zs] := by
  simp [sixteens, List.take_of_length_le h1, List.drop_eq_nil_of_le h1,
    List.drop_eq_nil_of_le (Nat.le_trans h1 (by decide : 16 ≤ 32)), h0]

theorem sixteens_two {zs : List ZoneIx} (h1 : 16 < zs.length) (h2 : zs.length ≤ 32) :
    sixteens zs = [zs.take 16, zs.drop 16] := by
  have htake : (!(zs.take 16).isEmpty) = true := not_isEmpty_of_pos (by simp; omega)
  have hdrop : (!(zs.drop 16).isEmpty) = true := not_isEmpty_of_pos (by simp; omega)
  have hrest : (zs.drop 16).take 16 = zs.drop 16 := List.take_of_length_le (by simp; omega)
  rw [sixteens, hrest, List.drop_eq_nil_of_le h2, List.take_nil,
    List.filter_cons_of_pos (p := fun g : List ZoneIx => !g.isEmpty) htake,
    List.filter_cons_of_pos (p := fun g : List ZoneIx => !g.isEmpty) hdrop]
  rfl

theorem sixteens_three {zs : List ZoneIx} (h2 : 32 < zs.length) :
    sixteens zs = [zs.take 16, (zs.drop 16).take 16, (zs.drop 32).take 16] := by
  have hfirst : (!(zs.take 16).isEmpty) = true := not_isEmpty_of_pos (by simp; omega)
  have hsecond : (!((zs.drop 16).take 16).isEmpty) = true := not_isEmpty_of_pos (by simp; omega)
  have hthird : (!((zs.drop 32).take 16).isEmpty) = true := not_isEmpty_of_pos (by simp; omega)
  refine List.filter_eq_self.mpr fun g hg => ?_
  simp only [List.mem_cons, List.not_mem_nil, or_false] at hg
  rcases hg with rfl | rfl | rfl
  · exact hfirst
  · exact hsecond
  · exact hthird

/-- What the groups of a list are. -/
structure InSixteens (zs : List ZoneIx) (gs : List (List ZoneIx)) : Prop where
  flatten : gs.flatten = zs
  length : gs.length = (zs.length + 15) / 16
  group : ∀ (k : Nat) g, gs[k]? = some g → g = (zs.drop (16 * k)).take 16

theorem inSixteens (zs : List ZoneIx) (h : zs.length ≤ 40) : InSixteens zs (sixteens zs) := by
  by_cases h0 : zs = []
  · subst h0
    exact ⟨rfl, rfl, fun k g hg => nomatch hg⟩
  have hpos := List.length_pos_of_ne_nil h0
  by_cases h1 : zs.length ≤ 16
  · rw [sixteens_one h0 h1]
    refine ⟨by simp, by rw [List.length_singleton]; omega, fun k g hg => ?_⟩
    match k, hg with
    | 0, hg => exact (Option.some.inj hg).symm.trans (List.take_of_length_le h1).symm
  by_cases h2 : zs.length ≤ 32
  · rw [sixteens_two (by omega) h2]
    refine ⟨by simp, by simp only [List.length_cons, List.length_nil]; omega, fun k g hg => ?_⟩
    match k, hg with
    | 0, hg => exact (Option.some.inj hg).symm
    | 1, hg => exact (Option.some.inj hg).symm.trans (List.take_of_length_le (by simp; omega)).symm
  · rw [sixteens_three (by omega)]
    refine ⟨?_, by simp only [List.length_cons, List.length_nil]; omega, fun k g hg => ?_⟩
    · have hlast : (zs.drop 32).take 16 = (zs.drop 16).drop 16 := by
        rw [List.take_of_length_le (by simp; omega), List.drop_drop]
      simp only [List.flatten_cons, List.flatten_nil, List.append_nil, hlast]
      rw [List.take_append_drop, List.take_append_drop]
    · match k, hg with
      | 0, hg => exact (Option.some.inj hg).symm
      | 1, hg => exact (Option.some.inj hg).symm
      | 2, hg => exact (Option.some.inj hg).symm

namespace Works

/-! ### Reports -/

theorem summary_eq (w : Works) (acc : Vector Acc 40) (z : ZoneIx) :
    w.summary acc z =
      [byte z.val,
       byte ((if (w.zone z).estimate.isSome then 1 else 0) + (if 0 < acc[z].count then 2 else 0)
        + (if (w.zone z).dry.isSome then 4 else 0) + (if (w.zone z).wet.isSome then 8 else 0))]
      ++ signed16 ((w.zone z).estimate.getD 0) ++ [(w.zone z).quality.code, byte acc[z].count]
      ++ signed16 (acc[z].min.getD 0) ++ signed16 (acc[z].max.getD 0) ++ [(w.zone z).frost.code]
      ++ signed16 (((w.zone z).dry.map Figure.value).getD 0)
      ++ signed16 (((w.zone z).wet.map Figure.value).getD 0) := by
  have hcount : presenceBit (decide (0 < acc[z].count)) 2 = if 0 < acc[z].count then 2 else 0 := by
    simp [presenceBit]
  unfold summary
  dsimp only
  rw [hcount]
  rfl

theorem length_summary (w : Works) (acc : Vector Acc 40) (z : ZoneIx) : (w.summary acc z).length = 15 := rfl

theorem report_of_room (h : 4 ≤ w.freeSlots) (payload : Bytes) :
    w.report payload = w.queueUp (uplinkFrame 0x04 0 payload) := if_pos h

theorem report_shed (h : w.freeSlots < 4) (payload : Bytes) : w.report payload = w.latchReportShed :=
  if_neg (Nat.not_le_of_lt h)

theorem sendGroups_cons (w : Works) (i : WinIx) (t : Nat) (acc : Vector Acc 40) (g : List ZoneIx)
    (gs : List (List ZoneIx)) :
    w.sendGroups i t acc (g :: gs) = (w.report (w.reportPayload i t acc g)).sendGroups i t acc gs := rfl

/-- With REPORT_SHED set and no room, nothing more changes. -/
theorem sendGroups_shed (h : w.freeSlots < 4) (hl : w.latchReportShed = w) (i : WinIx) (t : Nat)
    (acc : Vector Acc 40) (gs : List (List ZoneIx)) : w.sendGroups i t acc gs = w := by
  induction gs with
  | nil => rfl
  | cons g gs ih => rw [sendGroups_cons, report_shed h, hl, ih]

theorem sendGroups_cons_shed (h : w.freeSlots < 4) (i : WinIx) (t : Nat) (acc : Vector Acc 40)
    (g : List ZoneIx) (gs : List (List ZoneIx)) :
    w.sendGroups i t acc (g :: gs) = w.latchReportShed := by
  rw [sendGroups_cons, report_shed h]
  exact sendGroups_shed (w := w.latchReportShed) h rfl i t acc gs

theorem sendReports_eq {zs : List ZoneIx} (h : zs = allZones.filter fun z => (w.cfg z).inUse) (i : WinIx)
    (t : Nat) (acc : Vector Acc 40) : w.sendReports i t acc = w.sendGroups i t acc (sixteens zs) := by
  rw [h]
  rfl

/-- Two groups and room for one: the first is sent, and the room it leaves is too little for the
second. -/
theorem sendGroups_pair (h : w.freeSlots = 4) (i : WinIx) (t : Nat) (acc : Vector Acc 40)
    (g g' : List ZoneIx) :
    w.sendGroups i t acc [g, g'] =
      (w.queueUp (uplinkFrame 0x04 0 (w.reportPayload i t acc g))).latchReportShed := by
  have hless : (w.queueUp (uplinkFrame 0x04 0 (w.reportPayload i t acc g))).freeSlots < 4 := by
    unfold freeSlots queueUp at *
    dsimp only
    rw [List.length_append, List.length_singleton]
    omega
  rw [sendGroups_cons, report_of_room (Nat.le_of_eq h.symm), sendGroups_cons_shed hless]

/-! ### The zone's active entry -/

theorem findEntry_none_iff {p : EntryState → Bool} :
    w.findEntry z p = none ↔
      ∀ i r e, w.run i = some r → r.live = true → r.entry? z = some e → p e.state = false := by
  constructor
  · intro h i r e hr hlive he
    have hi := List.findSome?_eq_none_iff.mp h i (List.mem_finRange i)
    rw [hr] at hi
    dsimp only at hi
    rw [if_pos hlive, he] at hi
    by_contra hp
    dsimp only at hi
    rw [if_pos (Bool.eq_true_of_not_eq_false hp)] at hi
    exact nomatch hi
  · intro h
    cases hf : w.findEntry z p with
    | none => rfl
    | some found =>
      obtain ⟨r, hr, hlive, he, hp⟩ := findEntry_some (i := found.1) (x := found.2) hf
      exact absurd hp (by rw [h _ r _ hr hlive he]; exact Bool.false_ne_true)

/-- The only run with such an entry is the one found. -/
theorem findEntry_of_only {p : EntryState → Bool} (hr : w.run i = some r) (hlive : r.live = true)
    (he : r.entry? z = some e) (hp : p e.state = true)
    (honly : ∀ j, j ≠ i → ∀ r e, w.run j = some r → r.live = true → r.entry? z = some e →
      p e.state = false) :
    w.findEntry z p = some (i, e) := by
  cases hf : w.findEntry z p with
  | none => exact absurd hp (by rw [findEntry_none_iff.mp hf i r e hr hlive he]; exact Bool.false_ne_true)
  | some found =>
    obtain ⟨j, e'⟩ := found
    obtain ⟨r', hr', hlive', he', hp'⟩ := findEntry_some hf
    by_cases hj : j = i
    · subst hj
      obtain rfl := Option.some.inj (hr'.symm.trans hr)
      rw [Option.some.inj (he'.symm.trans he)]
    · exact absurd hp' (by rw [honly j hj r' e' hr' hlive' he']; exact Bool.false_ne_true)

theorem hasActiveEntry_false_iff :
    w.hasActiveEntry z = false ↔ ∀ i r e, w.run i = some r → r.live = true → r.entry? z = some e →
      e.state.active = false := by
  rw [hasActiveEntry, Option.isSome_eq_false_iff, Option.isNone_iff_eq_none, findEntry_none_iff]

/-! ### The trigger -/

theorem valveNodeReady_iff :
    w.valveNodeReady z = true ↔ ∃ id e, (w.cfg z).valveNode = some id ∧ (w.entry e).id = id
      ∧ ((w.entry e).state = .active ∨ (w.entry e).state = .silent) := by
  cases hn : (w.cfg z).valveNode with
  | none =>
    have h : w.valveNodeReady z = false := by
      unfold valveNodeReady
      rw [hn]
    rw [h]
    exact ⟨nofun, fun ⟨_, _, hid, _⟩ => nomatch hid⟩
  | some id =>
    rw [valveNodeReady_of hn, nodeReady_iff]
    constructor
    · rintro ⟨e, hid, hs⟩
      exact ⟨id, e, rfl, hid, hs⟩
    · rintro ⟨id', e, hid', hid, hs⟩
      obtain rfl := Option.some.inj hid'
      exact ⟨e, hid, hs⟩

theorem mayTrigger_iff :
    w.mayTrigger z = true ↔ (w.cfg z).inUse = true ∧ (w.zone z).auto = true ∧ (w.zone z).quality = .fresh
      ∧ (w.zone z).frost = .clear ∧ (w.zone z).valve = .closed ∧ w.valveNodeReady z = true
      ∧ w.hasActiveEntry z = false ∧ (w.cfg z).demand ≤ w.site.capacity := by
  simp only [mayTrigger, Bool.and_eq_true, beq_iff_eq, Bool.not_eq_true', decide_eq_true_iff, and_assoc]
  exact Iff.rfl

theorem trigger_of (hm : (w.zone z).estimate = some m) (hmay : w.mayTrigger z = true)
    (hlt : m < (w.cfg z).refill) : w.trigger z = w.autoPlace z (w.autoTarget z m) := by
  unfold trigger
  rw [hm]
  exact if_pos ⟨hmay, hlt⟩

/-- A zone that is placed met every condition of R94. -/
theorem trigger_same (h : ∀ m, (w.zone z).estimate = some m → w.mayTrigger z = true →
    ¬ m < (w.cfg z).refill) : w.trigger z = w := by
  unfold trigger
  cases hm : (w.zone z).estimate with
  | none => rfl
  | some m => exact if_neg fun ⟨hmay, hlt⟩ => h m hm hmay hlt

/-- The gathering run with the zone's entry joined to it. -/
def joinRun (w : Works) (i : SlotIx) (z : ZoneIx) (e : RunEntry) : Works :=
  (w.modRun i fun r => { r with entries := r.entries ++ [e] }).syncRunSlot z

/-- RDP's own work for a zone ZTB places. -/
def placeAuto (w : Works) (z : ZoneIx) (target : Nat) : Works :=
  match w.gatheringRun? with
  | some (i, r) =>
    if w.mayJoin z r then w.joinRun i z (RunEntry.waiting z (some target)) else w.newAutoRun z target
  | none => w.newAutoRun z target

theorem autoPlace_eq (w : Works) (z : ZoneIx) (target : Nat) :
    w.autoPlace z target = w.rdpEvent fun v => v.placeAuto z target := rfl

theorem mayJoin_iff :
    w.mayJoin z r = true ↔ r.entries.length < 8 ∧ r.entry? z = none
      ∧ w.demandSum (r.zonesIn .waiting) + w.demandOf z ≤ w.site.capacity := by
  simp only [mayJoin, Bool.and_eq_true, Option.isNone_iff_eq_none, decide_eq_true_iff, and_assoc]
  exact Iff.rfl

theorem placeAuto_join {target : Nat} (hg : w.gatheringRun? = some (i, r)) (hj : w.mayJoin z r = true) :
    w.placeAuto z target = w.joinRun i z (RunEntry.waiting z (some target)) := by
  unfold placeAuto
  rw [hg]
  exact if_pos hj

theorem placeAuto_new {target : Nat} (h : ∀ i r, w.gatheringRun? = some (i, r) → w.mayJoin z r = false) :
    w.placeAuto z target = w.newAutoRun z target := by
  unfold placeAuto
  cases hg : w.gatheringRun? with
  | none => rfl
  | some found =>
    obtain ⟨i, r⟩ := found
    exact if_neg (by rw [h i r hg]; exact Bool.false_ne_true)

theorem run_of_gatheringRun? (h : w.gatheringRun? = some (i, r)) :
    w.run i = some r ∧ r.state = .gathering := by
  unfold gatheringRun? at h
  split at h
  · rename_i s hs
    obtain ⟨-, r', hr', hstate⟩ := of_mem_runsByAge (List.mem_of_getLast? hs)
    rw [hr'] at h
    obtain ⟨rfl, rfl⟩ := Prod.mk.inj (Option.some.inj h)
    exact ⟨hr', beq_iff_eq.mp hstate⟩
  · exact nomatch h

theorem joinRun_calm (w : Works) (i : SlotIx) (z : ZoneIx) (e : RunEntry) :
    Calm true false w (w.joinRun i z e) :=
  (modRun_calm w i _).trans (syncRunSlot_calm _ z)

theorem run_joinRun (w : Works) (i j : SlotIx) (z : ZoneIx) (e : RunEntry) :
    (w.joinRun i z e).run j =
      if j = i then (w.run i).map fun r => { r with entries := r.entries ++ [e] } else w.run j := by
  rw [joinRun, run, runs_syncRunSlot]
  refine (run_modRun w i j _).trans ?_
  split
  · rename_i h
    rw [h]
  · rfl

theorem entry?_append_new (h : r.entry? e.zone = none) :
    Run.entry? { r with entries := r.entries ++ [e] } e.zone = some e := by
  unfold Run.entry? at *
  rw [List.find?_append, h]
  simp

/-- A joined entry is the zone's only active one, so its run slot field names the run. -/
theorem runSlot_joinRun (hr : w.run i = some r) (hlive : r.live = true) (he : r.entry? z = none)
    (ha : w.hasActiveEntry z = false) (target : Option Nat) :
    ((w.joinRun i z (RunEntry.waiting z target)).zone z).runSlot = some i := by
  obtain ⟨v, hv⟩ : ∃ v, v = w.modRun i fun r =>
    { r with entries := r.entries ++ [RunEntry.waiting z target] } := ⟨_, rfl⟩
  have hself : v.run i = some { r with entries := r.entries ++ [RunEntry.waiting z target] } := by
    rw [hv, run_modRun_self, hr]
    rfl
  have hothers (j) (hj : j ≠ i) : v.run j = w.run j := by
    rw [hv, run_modRun, if_neg hj]
  have hfind : v.findEntry z EntryState.active = some (i, RunEntry.waiting z target) :=
    findEntry_of_only hself hlive (entry?_append_new (e := RunEntry.waiting z target) he) rfl
      fun j hj r' e' hr' => hasActiveEntry_false_iff.mp ha j r' e' ((hothers j hj).symm.trans hr')
  unfold joinRun
  rw [← hv, runSlot_syncRunSlot, hfind]
  rfl

/-- A new run of one waiting zone that has no other active entry. -/
theorem runSlot_createRun (ha : w.hasActiveEntry z = false) (target gather : Option Nat) (origin : Origin) :
    ((w.createRun i .irrigation origin .gathering gather [RunEntry.waiting z target]).zone z).runSlot
      = some i := by
  obtain ⟨new, hnew⟩ : ∃ new, new =
    w.newRun .irrigation origin .gathering gather [RunEntry.waiting z target] := ⟨_, rfl⟩
  obtain ⟨v, hv⟩ : ∃ v, v = { w.setRun i (some new) with
    runNumber := if w.runNumber = 0xFFFF#16 then 1 else w.runNumber + 1, runSerial := w.runSerial + 1 } :=
    ⟨_, rfl⟩
  have hself : v.run i = some new := by
    rw [hv]
    exact run_setRun_self w i _
  have hothers (j) (hj : j ≠ i) : v.run j = w.run j := by
    rw [hv]
    exact (run_setRun w i j _).trans (if_neg hj)
  have hentry : new.entry? z = some (RunEntry.waiting z target) := by
    rw [hnew]
    exact entry?_append_new (r := w.newRun .irrigation origin .gathering gather [])
      (e := RunEntry.waiting z target) rfl
  have hfind : v.findEntry z EntryState.active = some (i, RunEntry.waiting z target) :=
    findEntry_of_only hself (by rw [hnew]; rfl) hentry rfl
      fun j hj r' e' hr' => hasActiveEntry_false_iff.mp ha j r' e' ((hothers j hj).symm.trans hr')
  have hput : w.withRun i new = v.syncRunSlot z := by
    rw [hv, hnew]
    rfl
  rw [(createRun_restates w i .irrigation origin .gathering gather _).zone z, ← hnew, hput,
    runSlot_syncRunSlot, hfind]
  rfl

/-- A new run, GATHERING. -/
theorem newAutoRun_gathering (hs : w.newSlot? = some i) (hg : 0 < w.site.gatherTime) (z : ZoneIx)
    (target : Nat) :
    w.newAutoRun z target = w.createRun i .irrigation .auto .gathering
      (some (after w.time w.site.gatherTime)) [RunEntry.waiting z (some target)] := by
  unfold newAutoRun
  rw [hs]
  exact if_pos hg

/-- A new run, at once QUEUED. -/
theorem newAutoRun_queued (hs : w.newSlot? = some i) (hg : w.site.gatherTime = 0) (z : ZoneIx)
    (target : Nat) :
    w.newAutoRun z target =
      (w.createRun i .irrigation .auto .queued none [RunEntry.waiting z (some target)]).offerAdmission := by
  unfold newAutoRun
  rw [hs]
  exact if_neg (by omega)

theorem newAutoRun_full (hs : w.newSlot? = none) (z : ZoneIx) (target : Nat) :
    w.newAutoRun z target = w.latchRunFull := by
  unfold newAutoRun
  rw [hs]

end Works

/-! ### The obligation -/

/-- The reports of a close (R92, R93). -/
theorem reports_of_close (w : Works) (i : WinIx) (closedAt : Nat) (acc : Vector Acc 40)
    (zs : List ZoneIx) (hzs : zs = (List.finRange 40).filter (fun z => (w.cfg z).inUse)) :
    InSixteens zs w.reportGroups
    ∧ w.sendReports i closedAt acc = w.reportGroups.foldl (fun v g => v.report
        ([byte i.val] ++ be32 closedAt ++ [byte g.length] ++ g.flatMap (v.summary acc))) w
    ∧ (zs = [] → w.sendReports i closedAt acc = w)
    ∧ (zs ≠ [] → zs.length ≤ 16 → 4 ≤ w.freeSlots →
        w.sendReports i closedAt acc = { w with upQueue := w.upQueue ++ [uplinkFrame 0x04 0
          ([byte i.val] ++ be32 closedAt ++ [byte zs.length] ++ zs.flatMap (w.summary acc))] })
    ∧ (zs ≠ [] → w.freeSlots < 4 →
        w.sendReports i closedAt acc = { w with latches := { w.latches with reportShed := true } })
    ∧ (16 < zs.length → zs.length ≤ 32 → w.freeSlots = 4 →
        w.sendReports i closedAt acc = { w with
          upQueue := w.upQueue ++ [uplinkFrame 0x04 0 ([byte i.val] ++ be32 closedAt ++ [16]
            ++ (zs.take 16).flatMap (w.summary acc))],
          latches := { w.latches with reportShed := true } }) := by
  have hgroups : w.reportGroups = sixteens zs := by
    rw [hzs]
    rfl
  have hlength : zs.length ≤ 40 := by
    rw [hzs]
    exact (List.length_filter_le _ _).trans (Nat.le_of_eq (List.length_finRange (n := 40)))
  have hsend := sendReports_eq hzs i closedAt acc
  refine ⟨hgroups ▸ inSixteens zs hlength, rfl, fun h0 => ?none, fun h0 h1 hroom => ?one,
    fun h0 hfull => ?shed, fun h1 h2 hroom => ?pair⟩
  case none =>
    rw [hsend, h0]
    rfl
  case one =>
    rw [hsend, sixteens_one h0 h1, sendGroups_cons, report_of_room hroom]
    rfl
  case shed =>
    have hne : sixteens zs ≠ [] := by
      intro hnil
      have hflat := (inSixteens zs hlength).flatten
      rw [hnil] at hflat
      exact h0 hflat.symm
    obtain ⟨g, gs, hcons⟩ := List.exists_cons_of_ne_nil hne
    rw [hsend, hcons, sendGroups_cons_shed hfull]
    rfl
  case pair =>
    have hcount : (zs.take 16).length = 16 := by
      rw [List.length_take]
      omega
    rw [hsend, sixteens_two h1 h2, sendGroups_pair hroom, reportPayload, hcount]
    rfl

/-- A zone that lacks a condition of R94 is left alone. -/
theorem trigger_of_not (w : Works) (z : ZoneIx)
    (h : ¬((w.cfg z).inUse = true ∧ (w.zone z).auto = true ∧ (w.zone z).quality = .fresh
        ∧ (∃ m, (w.zone z).estimate = some m ∧ m < (w.cfg z).refill) ∧ (w.zone z).frost = .clear
        ∧ (w.zone z).valve = .closed
        ∧ (∃ id e, (w.cfg z).valveNode = some id ∧ (w.entry e).id = id
            ∧ ((w.entry e).state = .active ∨ (w.entry e).state = .silent))
        ∧ (∀ i r x, w.run i = some r → r.live = true → r.entry? z = some x → x.state.active = false)
        ∧ (w.cfg z).demand ≤ w.site.capacity)) : w.trigger z = w := by
  refine trigger_same fun m hm hmay hlt => h ?_
  obtain ⟨huse, hauto, hquality, hfrost, hvalve, hnode, hactive, hdemand⟩ := mayTrigger_iff.mp hmay
  exact ⟨huse, hauto, hquality, ⟨m, hm, hlt⟩, hfrost, hvalve, valveNodeReady_iff.mp hnode,
    hasActiveEntry_false_iff.mp hactive, hdemand⟩

section

variable {m : Int} {target : Nat} (hplace : w.trigger z = w.autoPlace z target) (hidle : w.Idle)
  (hactive : w.hasActiveEntry z = false)

include hplace hidle hactive

/-- The zone joins the newest gathering run (R95). -/
theorem trigger_joins (hg : w.gatheringRun? = some (i, r)) (hlen : r.entries.length < 8)
    (hnone : r.entry? z = none)
    (hfit : w.demandSum (r.zonesIn .waiting) + w.demandOf z ≤ w.site.capacity) :
    (w.trigger z).run i = some { r with entries := r.entries ++ [RunEntry.waiting z (some target)] }
      ∧ (∀ j, j ≠ i → (w.trigger z).run j = w.run j)
      ∧ ((w.trigger z).zone z).runSlot = some i := by
  obtain ⟨hr, hstate⟩ := run_of_gatheringRun? hg
  have hlive : r.live = true := by
    rw [Run.live, hstate]
    rfl
  have hwork := placeAuto_join (target := target) hg (mayJoin_iff.mpr ⟨hlen, hnone, hfit⟩)
  have hdone : w.trigger z = (w.joinRun i z (RunEntry.waiting z (some target))).tellLine := by
    rw [hplace, autoPlace_eq, rdpEvent_of_idle] <;> rw [hwork]
    exact (joinRun_calm w i z _).idle hidle
  rw [hdone]
  refine ⟨?_, fun j hj => ?_, ?_⟩
  · rw [run_tellLine, run_joinRun, if_pos rfl, hr]
    rfl
  · rw [run_tellLine, run_joinRun, if_neg hj]
  · rw [zone_tellLine]
    exact runSlot_joinRun hr hlive hnone hactive (some target)

variable (hnew : w.placeAuto z target = w.newAutoRun z target)

include hnew

/-- The zone starts a run that gathers (R95, R127). -/
theorem trigger_starts (hs : w.newSlot? = some i) (hgather : 0 < w.site.gatherTime) :
    (w.trigger z).run i = some (w.newRun .irrigation .auto .gathering
      (some (after w.time w.site.gatherTime)) [RunEntry.waiting z (some target)])
      ∧ (∀ j, j ≠ i → (w.trigger z).run j = w.run j)
      ∧ ((w.trigger z).zone z).runSlot = some i := by
  have hwork := hnew.trans (newAutoRun_gathering hs hgather z target)
  have hdone : w.trigger z = (w.createRun i .irrigation .auto .gathering
      (some (after w.time w.site.gatherTime)) [RunEntry.waiting z (some target)]).tellLine := by
    rw [hplace, autoPlace_eq, rdpEvent_of_idle] <;> rw [hwork]
    exact (createRun_calm (k := true) w i .irrigation .auto .gathering _ _).idle hidle
  rw [hdone]
  refine ⟨?_, fun j hj => ?_, ?_⟩
  · rw [run_tellLine, run_createRun (by decide)]
  · rw [run_tellLine, run_createRun_ne hj]
  · rw [zone_tellLine]
    exact runSlot_createRun hactive _ _ _

omit hactive in
/-- No slot is left (R95). -/
theorem trigger_runFull (hs : w.newSlot? = none) : w.trigger z = w.latchRunFull.tellLine := by
  have hwork := hnew.trans (newAutoRun_full hs z target)
  rw [hplace, autoPlace_eq, rdpEvent_of_idle] <;> rw [hwork]
  exact hidle

end

/-- Settles O14. -/
theorem reportsAndTrigger : Obligations.ReportsAndTrigger := by
  refine ⟨fun w i closedAt acc zs hzs => ?_, fun w acc z => ⟨summary_eq w acc z, length_summary w acc z⟩,
    fun w z => ⟨trigger_of_not w z, ?_⟩⟩
  · obtain ⟨⟨hflatten, hlength, hgroup⟩, hrest⟩ := reports_of_close w i closedAt acc zs hzs
    exact ⟨hflatten, hlength, hgroup, hrest⟩
  rintro m target entry hmay hm hlt hidle htarget rfl
  obtain ⟨-, -, -, -, -, -, hactive, -⟩ := mayTrigger_iff.mp hmay
  have hplace : w.trigger z = w.autoPlace z target := by
    rw [trigger_of hm hmay hlt, htarget]
    rfl
  refine ⟨fun i r hg hlen hnone hfit => trigger_joins hplace hidle hactive hg hlen hnone hfit,
    fun hcase => ?_⟩
  have hnew : w.placeAuto z target = w.newAutoRun z target := by
    refine placeAuto_new fun i r hg => Bool.eq_false_of_not_eq_true fun hjoin => ?_
    obtain ⟨hlen, hnone, hfit⟩ := mayJoin_iff.mp hjoin
    rcases hcase with h | ⟨i', r', hg', hbad⟩
    · exact nomatch hg.symm.trans h
    · obtain ⟨rfl, rfl⟩ := Prod.mk.inj (Option.some.inj (hg'.symm.trans hg))
      rcases hbad with hbad | hbad | hbad
      · exact absurd hlen (Nat.not_lt_of_le hbad)
      · exact hbad hnone
      · exact absurd hfit (Nat.not_le_of_lt hbad)
  refine ⟨fun i hs hgather => trigger_starts hplace hidle hactive hnew hs hgather,
    fun i hs hgather => ?_, fun hs => ?_⟩
  · show _ = settleEvents _ _
    rw [hplace, autoPlace_eq, rdpEvent, hnew, newAutoRun_queued hs hgather]
  · rw [trigger_runFull hplace hidle hnew hs]
    have honly := tellLine_onlyLine w.latchRunFull
    refine ⟨?_, honly.runs, honly.zones⟩
    rw [honly]
    rfl

end Sys2Proof.Machine
end

section
/-! LAWS. What an event of RDP and of FRW leaves alone: the tables, the roster, the time and every latch
but NOTICE_GAP. -/

namespace Sys2Proof.Machine

namespace Works

variable {u v w : Works} {i : SlotIx} {z : ZoneIx} {k : Bool}

theorem Calm.fst {p : Works × Bool} {b : Bool} (h : p = (v, b)) (a : Calm false k w p.1) :
    Calm false k w v := by
  subst h
  exact a

/-! ### The admission pass -/

theorem admitEntry_stirs (w : Works) (i : SlotIx) (z : ZoneIx) : Calm false false w (w.admitEntry i z) :=
  (putEntry_calm w i z _).trans (openRequest_stirs _ z)

theorem admitRun_stirs (w : Works) (i : SlotIx) : Calm false false w (w.admitRun i) :=
  (Calm.foldl _ _ fun w z => admitEntry_stirs w i z).trans (setRunState_calm _ i _ _)

theorem frostShort_calm (w : Works) (z : ZoneIx) (need short : Nat) :
    Calm false false w (w.frostShort z need short) := by
  unfold frostShort
  split
  · split
    · exact Calm.refl w
    · exact (putEntry_calm w 0 z _).trans (notice_calm _ _ _ _)
  · exact Calm.refl w

theorem suspendRun_stirs (w : Works) (i : SlotIx) : Calm false false w (w.suspendRun i) := by
  unfold suspendRun
  split
  · exact Calm.refl w
  · exact ((setRunState_calm w i _ _).trans (Calm.foldl _ _ fun w e => sendClosing_stirs w i _ _)).trans
      (judgeIrrigation_calm _ i)

theorem suspendRuns_stirs (need : Nat) (is : List SlotIx) (w : Works) (freed count : Nat) :
    Calm false false w (suspendRuns need is w freed count).1 := by
  induction is generalizing w freed count with
  | nil => exact Calm.refl w
  | cons i is ih =>
    unfold suspendRuns
    split
    · exact Calm.refl w
    · exact (suspendRun_stirs w i).trans (ih _ _ _)

theorem suspensionJudgment_stirs (w : Works) (z : ZoneIx) :
    Calm false false w (w.suspensionJudgment z) := by
  unfold suspensionJudgment
  dsimp only
  exact Calm.ite ((suspendRuns_stirs _ _ w _ _).trans (frostShort_calm _ z _ _)) (suspendRuns_stirs _ _ w _ _)

theorem passFrost_stirs (zs : List ZoneIx) (w : Works) : Calm false false w (passFrost zs w).1 := by
  induction zs generalizing w with
  | nil => exact Calm.refl w
  | cons z zs ih =>
    unfold passFrost
    split
    · exact ih w
    · split
      · exact (frostShort_calm w z _ _).trans (ih _)
      · split
        · exact ((admitEntry_stirs w 0 z).trans (judgeFrost_calm _)).trans (ih _)
        · exact suspensionJudgment_stirs w z

theorem passReadmit_stirs (l : List (SlotIx × ZoneIx)) (w : Works) :
    Calm false false w (passReadmit l w).1 := by
  induction l generalizing w with
  | nil => exact Calm.refl w
  | cons p l ih =>
    unfold passReadmit
    split
    · exact ih w
    · split
      · exact ((admitEntry_stirs w p.1 p.2).trans (judgeIrrigation_calm _ p.1)).trans (ih _)
      · exact Calm.refl w

theorem passSuspended_stirs (l : List SlotIx) (w : Works) : Calm false false w (passSuspended l w).1 := by
  induction l generalizing w with
  | nil => exact Calm.refl w
  | cons i l ih =>
    unfold passSuspended
    split
    · exact ih w
    · split
      · exact (admitRun_stirs w i).trans (ih _)
      · exact Calm.refl w

theorem passQueued_stirs (l : List SlotIx) (w : Works) : Calm false false w (passQueued l w) := by
  induction l generalizing w with
  | nil => exact Calm.refl w
  | cons i l ih =>
    unfold passQueued
    split
    · exact (admitRun_stirs w i).trans (ih _)
    · exact Calm.refl w

theorem admissionPass_stirs (w : Works) : Calm false false w w.admissionPass := by
  unfold admissionPass
  dsimp only
  split
  · rename_i h
    exact Calm.fst h (passFrost_stirs _ w)
  · rename_i w1 h
    have h1 : Calm false false w w1 := Calm.fst h (passFrost_stirs _ w)
    split
    · rename_i h
      exact h1.trans (Calm.fst h (passReadmit_stirs _ w1))
    · rename_i w2 h
      have h2 : Calm false false w w2 := h1.trans (Calm.fst h (passReadmit_stirs _ w1))
      split
      · rename_i h
        exact h2.trans (Calm.fst h (passSuspended_stirs _ w2))
      · rename_i w3 h
        exact (h2.trans (Calm.fst h (passSuspended_stirs _ w2))).trans (passQueued_stirs _ w3)

theorem runOffer_stirs (w : Works) : Calm false false w w.runOffer :=
  Calm.ite (Calm.trans (v := { w with offer := false }) { owed := nofun } (admissionPass_stirs _))
    (Calm.refl w)

/-! ### Events -/

theorem closeReport_calm (w : Works) (z : ZoneIx) : Calm false false w (w.closeReport z) := by
  unfold closeReport
  split
  · exact ((putEntry_calm w _ z _).trans (judgeRun_calm _ _)).trans (offerAdmission_calm _)
  · exact offerAdmission_calm w

theorem settleEvents_stirs (fuel : Nat) (w : Works) : Calm false false w (settleEvents fuel w) := by
  induction fuel generalizing w with
  | zero => exact { owed := nofun }
  | succ fuel ih =>
    unfold settleEvents
    split
    · exact (runOffer_stirs w).trans (ih _)
    · split
      · exact (tellLine_onlyLine w).calm
      · rename_i z zs _
        have hnext : Calm false false w { w.tellLine with closes := zs } :=
          (tellLine_onlyLine w).calm.trans { owed := nofun }
        exact (hnext.trans (closeReport_calm _ z)).trans (ih _)

theorem rdpEvent_stirs (w : Works) {f : Works → Works} (h : Calm false false w (f w)) :
    Calm false false w (w.rdpEvent f) :=
  h.trans (settleEvents_stirs Config.eventBound (f w))

/-! ### FRW's requests -/

theorem joinFrost_calm (w : Works) (e : RunEntry) : Calm false k w (w.joinFrost e) := by
  unfold joinFrost
  split
  · exact ((modRun_calm w 0 _).trans (syncRunSlot_calm _ _)).trans (judgeFrost_calm _)
  · exact createRun_calm w 0 _ _ _ _ _

theorem transfer_stirs (w : Works) (z : ZoneIx) (i : SlotIx) (e : RunEntry) :
    Calm false false w (w.transfer z i e) := by
  have hmoved (x : RunEntry) (g : RunEntry → RunEntry) :
      Calm false false w (((w.joinFrost x).putEntry i z g).judgeIrrigation i) :=
    ((joinFrost_calm w x).trans (putEntry_calm _ i z g)).trans (judgeIrrigation_calm _ i)
  unfold transfer
  dsimp only
  split
  · exact (hmoved _ _).trans (renew_stirs _ z)
  · exact hmoved _ _
  · exact (hmoved _ _).trans (offerAdmission_calm _)
  · exact (hmoved _ _).trans (offerAdmission_calm _)
  all_goals exact Calm.refl w

theorem placeWork_stirs (w : Works) (z : ZoneIx) : Calm false false w (w.placeWork z) := by
  have hjoin : Calm false false w (w.joinFrost (RunEntry.waiting z none)).offerAdmission :=
    (joinFrost_calm w _).trans (offerAdmission_calm _)
  unfold placeWork
  split
  · split
    · exact ((putEntry_calm w 0 z _).trans (setFollowOn_stirs _ z)).trans (judgeFrost_calm _)
    · exact Calm.refl w
    · exact Calm.refl w
    · exact Calm.refl w
    all_goals
      split
      · exact transfer_stirs w z _ _
      · exact hjoin
  · split
    · exact transfer_stirs w z _ _
    · exact hjoin

theorem withdrawWork_stirs (w : Works) (z : ZoneIx) : Calm false false w (w.withdrawWork z) := by
  have hclosing := (sendClosing_stirs w 0 .withdraw z).trans (judgeFrost_calm _)
  unfold withdrawWork
  split
  · split
    · exact ((putEntry_calm w 0 z _).trans (judgeFrost_calm _)).trans (offerAdmission_calm _)
    · exact hclosing
    · exact hclosing
    all_goals exact Calm.refl w
  · exact Calm.refl w

/-! ### Evaluation -/

theorem settleZone_calm (w : Works) (z : ZoneIx) (cause : FrostCause) :
    Calm false false w (w.settleZone z cause) := setFrost_calm w z _ _ cause

theorem placeZone_stirs (w : Works) (z : ZoneIx) (cause : FrostCause) :
    Calm false false w (w.placeZone z cause) :=
  (rdpEvent_stirs w (placeWork_stirs w z)).trans (setFrost_calm _ z _ _ cause)

theorem frostConfirmed_stirs (w : Works) (z : ZoneIx) (cause : FrostCause) :
    Calm false false w (w.frostConfirmed z cause) := by
  have hcount : Calm false false w (w.modZone z fun x => { x with confirm := 0 }) := modZone_stirs w z _
  exact Calm.ite (hcount.trans (placeZone_stirs _ z cause)) (hcount.trans (setFrost_calm _ z _ _ cause))

theorem evaluateQuiet_stirs (w : Works) (z : ZoneIx) (wet : Int) (sensor : Bool) (cause : FrostCause) :
    Calm false false w (w.evaluateQuiet z wet sensor cause) := by
  have hcount : Calm false false w (w.modZone z fun x => { x with confirm := 0 }) := modZone_stirs w z _
  unfold evaluateQuiet
  refine Calm.ite (Calm.ite (Calm.ite (frostConfirmed_stirs w z cause) (modZone_stirs w z _))
    (Calm.refl w)) ?_
  dsimp only
  split
  · exact hcount
  · exact Calm.ite (hcount.trans (setFrost_calm _ z _ _ cause))
      (Calm.ite (hcount.trans (setFrost_calm _ z _ _ cause)) hcount)

theorem evaluate_stirs (w : Works) (z : ZoneIx) (wet : Int) (sensor : Bool) (cause : FrostCause) :
    Calm false false w (w.evaluate z wet sensor cause) := by
  unfold evaluate
  dsimp only
  split
  · exact evaluateQuiet_stirs w z wet sensor cause
  · exact evaluateQuiet_stirs w z wet sensor cause
  · exact Calm.ite ((rdpEvent_stirs w (withdrawWork_stirs w z)).trans (settleZone_calm _ z cause))
      (Calm.refl w)
  · exact Calm.ite (setFrost_calm w z _ _ cause) (Calm.refl w)
  · exact Calm.ite (Calm.refl w) (setFrost_calm w z _ _ cause)
  · exact Calm.ite (settleZone_calm w z cause) (Calm.refl w)

theorem blindNotice_calm (w : Works) (z : ZoneIx) (wasBlind : Bool) :
    Calm false false w (w.blindNotice z wasBlind) := by
  unfold blindNotice
  refine Calm.ite ?_ (Calm.refl w)
  split
  · exact notice_calm w _ _ _
  · exact notice_calm w _ _ _
  · exact Calm.refl w

theorem recompute_stirs (w : Works) (z : ZoneIx) (sensor : Option FigSource) (cause : FrostCause) :
    Calm false false w (w.recompute z sensor cause) := by
  have hform : Calm false false w (w.formFigures z) :=
    (modZone_stirs w z _).trans (blindNotice_calm _ z _)
  unfold recompute
  dsimp only
  split
  · exact hform.trans (evaluate_stirs _ z _ _ cause)
  · exact Calm.ite (hform.trans (setFrost_calm _ z _ _ cause)) hform

theorem frostEvent_stirs (w : Works) (z : ZoneIx) (sensor : Bool) (cause : FrostCause) :
    Calm false false w (w.frostEvent z sensor cause) :=
  ((modZone_stirs w z _).trans (recompute_stirs _ z _ cause)).trans
    (Calm.foldl _ _ fun w x => Calm.ite (recompute_stirs w x _ cause) (Calm.refl w))

theorem tellFrost_stirs (w : Works) (zone : Option ZoneIx) : Calm false false w (w.tellFrost zone) := by
  unfold tellFrost
  split
  · exact frostEvent_stirs w _ _ _
  · exact Calm.refl w

/-- A quarantine sets no latch but NOTICE_GAP. -/
theorem bounds_quarantine (w : Works) (e : EntryIx) (cls : Byte) :
    (w.quarantine e cls).latches.bounds = w.latches.bounds := by
  unfold quarantine
  rw [(tellFrost_stirs _ _).bounds, (notice_calm (q := false) (k := false) _ _ _ _).bounds]
  rfl

end Works

end Sys2Proof.Machine
end

section
/-! PROOF. Readings of a roster node (O20). -/

namespace Sys2Proof.Machine

open Works State

variable {s : State} {w : Works} {e : EntryIx} {z : ZoneIx} {h : HandOff} {rest : List HandOff}
  {x : FieldFrame} {r : Reading} {v : Int}

theorem eq_withRoster {u v : Works} {r : Vector Entry 256} (h : v = { u with roster := r }) :
    v = { u with roster := v.roster } := by
  subst h
  rfl

/-- Settles O20. -/
theorem rosterReadingCalibratedAndKept : Obligations.RosterReadingCalibratedAndKept := by
  refine ⟨fun _ _ _ => rfl, fun raw => calibrate_default, ?_, ?_⟩
  · intro s h rest x e st r c hframe hc hcls v hlow hup kept with_
    obtain ⟨u, hu⟩ : ∃ u : State, u = { s with swuQueue := rest, works := kept } := ⟨_, rfl⟩
    have hend {t : State} (ht : u.routeRoster e x.src c.cls v = t) :
        exec .swuTakeReading s = .next t.finish :=
      exec_goodReading hframe hc hcls rfl hlow hup (hu ▸ ht)
    have hsame : exec .swuTakeReading s = .next u.finish → with_ kept := fun he => by
      subst hu
      exact he
    have hworks : u.works = kept := hu ▸ rfl
    have hzone : (u.works.entry e).zone = (s.works.entry e).zone := hworks ▸ zone_kept s.works e _ c v
    have htables : u.works.tables = s.works.tables := hworks ▸ rfl
    have hsources : u.works.valveZone? x.src = s.works.valveZone? x.src := hworks ▸ rfl
    refine ⟨fun hk => ?_, fun hk huse => ?_, fun hk z hz huse => ?_, fun hk hnone => ?_,
      fun hk z hz => ?_, fun hk hmeter => ?_, fun hk hmeter => ?_, fun hk hnone => ?_,
      fun hk z hz => ⟨fun hidle => ?_, fun hv hstuck => ?_, fun hv hclosed hcmd => ?_⟩⟩
    · exact hsame (hend (hk ▸ routeRoster_aux _ _))
    · refine hsame (hend ?_)
      rw [hk, routeRoster_moisture]
      refine accumulate_unused (fun z hz => ?_) v
      exact hworks ▸ huse z (hzone.symm.trans hz)
    · have hadd : u.routeRoster e x.src c.cls v = { u with windows := sampled u.windows z v } := by
        rw [hk, routeRoster_moisture, hzone, hz]
        exact accumulate_inUse (hworks ▸ huse) v
      subst hu
      exact ⟨_, hend hadd, rfl, by constructor <;> rfl, rfl, fun i => sampled_at s.windows z v i⟩
    · exact hsame (hend (routeRoster_air_unzoned hk (hzone.trans hnone) _ _))
    · have hsensor : (c.cls == classAirWet && (u.works.entry e).heard) =
          decide (c.cls = 2 ∧ ((s.works.entry e).state = .active ∨ (s.works.entry e).state = .silent)) := by
        have hstate : (kept.entry e).state = (s.works.entry e).state :=
          (congrArg Entry.state (entry_kept s.works e r.channel c v) :)
        rw [hworks, heard_eq, hstate, Bool.decide_and]
        rfl
      have hair := routeRoster_air hk (hzone.trans hz) x.src v
      rw [hsensor] at hair
      subst hu
      exact hend hair
    · refine hsame (hend ?_)
      rw [hk, routeRoster_flow]
      exact if_neg (hworks ▸ hmeter)
    · have hflow : u.routeRoster e x.src c.cls v = { u with works := u.works.flowReading v } := by
        rw [hk, routeRoster_flow]
        exact if_pos (hworks ▸ hmeter)
      obtain ⟨hzones, hleak, hruns⟩ := flowReading_effect u.works v
      have k := flowReading_keeps (q := true) (n := true) (f := true) u.works v
      have kkept : Keeps true false true s.works kept := modEntry_keeps _ _ _
      subst hu
      exact ⟨_, hend hflow, (k.nodes rfl).1, hzones, sameBase_untouched (kkept.trans k.dropNodes).sameBase,
        by constructor <;> rfl, rfl, hleak, hruns⟩
    · refine hsame (hend ?_)
      rw [hk, routeRoster_valve]
      exact routeValve_none (hsources.trans hnone) v
    · have hvalve := routeValve_found (hsources.trans hz) v
      rw [← routeRoster_valve (e := e), hworks, positionReading_idle (w := kept) hidle] at hvalve
      subst hu
      exact hend (hk ▸ hvalve)
    · have hvalve := routeValve_found (hsources.trans hz) v
      rw [← routeRoster_valve (e := e), hworks, hv,
        positionReading_cleared (w := kept) (src := x.src) hz hstuck] at hvalve
      subst hu
      exact hend (hk ▸ hv ▸ hvalve)
    · have hvalve := routeValve_found (hsources.trans hz) v
      rw [← routeRoster_valve (e := e), hworks, hv,
        positionReading_fault (w := kept) (src := x.src) hz hclosed hcmd] at hvalve
      subst hu
      exact hend (hk ▸ hv ▸ hvalve)
  · intro s h rest x e st r more limit cls hframe n hwhy streak latched
    obtain ⟨hbad, hlimit, hclass⟩ := trapped_held_to (rest := rest) hwhy
    have htake := takeSwu_roster hframe
    refine ⟨fun hmore hwithin => ?_, fun h0 hle hst => ?_⟩
    · rw [judgeRoster_bad hbad (.inl hmore)] at htake
      have hkept := badReading_within (w := s.works.latchBounds) (e := e) (channel := r.channel)
        (cls := r.cls) (by rw [hlimit]; exact hwithin)
      exact congrArg (fun t : State => Host.Outcome.next t.finish)
        (htake.trans (congrArg (fun w => ({ s with swuQueue := rest, works := w } : State)) hkept))
    · have hover := badReading_over (w := s.works.latchBounds) (e := e) (channel := r.channel)
        (cls := r.cls) (by rw [hlimit]; exact h0) (by rw [hlimit]; exact hle) hst
      rw [hclass] at hover
      have hentry := onlyEntry_quarantine (onlyEntry_modEntry s.works.latchBounds e streaked) cls
      have kover := ((latchBounds_keeps (q := true) s.works).trans
        (modEntry_keeps (f := false) _ e streaked)).trans (quarantine_keeps _ e cls)
      have hq : ((s.works.latchBounds.badReading e r.channel r.cls).entry e).state = .quarantined := by
        rw [hover]
        exact (congrArg Entry.state hentry.1 :)
      have hnot : (s.works.entry e).state ≠ .quarantined := by
        rcases hst with hst | hst <;> rw [hst] <;> decide
      rw [judgeRoster_bad hbad (.inr ⟨hq, hnot⟩)] at htake
      have htake : s.takeSwu =
          { s with
            swuQueue := rest, works := (s.works.latchBounds.modEntry e streaked).quarantine e cls } :=
        htake.trans (congrArg (fun w => ({ s with swuQueue := rest, works := w } : State)) hover)
      refine ⟨_, congrArg (fun t : State => Host.Outcome.next t.finish) htake, hentry,
        sameBase_untouched kover.sameBase, ?_, by constructor <;> rfl, rfl, fun hair => ?_⟩
      · exact bounds_quarantine _ e cls
      · have hself := entry_modEntry_self s.works.latchBounds e streaked
        have halone := quarantine_alone (w := s.works.latchBounds.modEntry e streaked) (e := e)
          (by rw [hself]; exact hair) cls
        rw [hself, notice_modEntry] at halone
        exact congrArg (fun w : Works => { w with touched := [] }) (eq_withRoster halone)

end Sys2Proof.Machine
end
